-- ==== Sys2Proof/Word.lean ====
section
/-! DEFINITION. The widths of the values the unit holds and computes (00_scope.md R8, 10_state.md R10, R25):
every value is an unsigned integer of a stated width, and a byte string is a list of bytes, the first on the wire
at its head. -/

namespace Sys2Proof

/-- The only addressable unit (20_memory.md R30). -/
abbrev Byte := BitVec 8

/-- A link address: bits 47 to 40 are the first byte on the wire (00_scope.md R8, 10_state.md R11). -/
abbrev Mac := BitVec 48

/-- An IPv4 address: bits 31 to 24 are the first byte on the wire (00_scope.md R8, 10_state.md R12). -/
abbrev Ip := BitVec 32

/-- A UDP port (10_state.md R13). -/
abbrev Port := BitVec 16

/-- A byte string; its length is the number of its bytes (00_scope.md R8). -/
abbrev Bytes := List Byte

end Sys2Proof
end

