-- ==== Sys2Proof/Machine/Operands.lean ====
section
/-! DEFINITION. The unit's operand forms: byte strings, their substrings, and big-endian fields at a constant offset
(00_scope.md R8, 20_memory.md R32, R34). There is no other addressing mode. -/

namespace Sys2Proof.Machine

/-- `be16(v)`: the most significant byte first. -/
def be16 (v : BitVec 16) : Bytes :=
  [v.extractLsb' 8 8, v.extractLsb' 0 8]

/-- `be32(v)`. -/
def be32 (v : BitVec 32) : Bytes :=
  [v.extractLsb' 24 8, v.extractLsb' 16 8, v.extractLsb' 8 8, v.extractLsb' 0 8]

/-- `mac6(v)`. -/
def mac6 (v : Mac) : Bytes :=
  [v.extractLsb' 40 8, v.extractLsb' 32 8, v.extractLsb' 24 8, v.extractLsb' 16 8, v.extractLsb' 8 8,
    v.extractLsb' 0 8]

/-- The unsigned integer whose big-endian bytes are the string. -/
def bigEndian (B : Bytes) : Nat :=
  B.foldl (fun acc b => acc * 256 + b.toNat) 0

/-- `B[i..j]`: bytes `i` to `j - 1` (00_scope.md R8). -/
def slice (B : Bytes) (i j : Nat) : Bytes :=
  (B.drop i).take (j - i)

/-- `B[i]`. DESIGN CHOICE (log 15): beyond the string's end it is 0x00, which no operation reads (20_memory.md R35). -/
def byteAt (B : Bytes) (i : Nat) : Byte :=
  B.getD i 0x00#8

/-- `MemRead(B, off, n)`: defined by the spec when `off + n <= |B|`; every caller tests that first (log 15). -/
def memRead (B : Bytes) (off n : Nat) : Nat :=
  bigEndian (slice B off (off + n))

/-- `MemWrite(B, off, n, v)` with `bs` the `n` big-endian bytes of `v`. -/
def memWrite (B : Bytes) (off : Nat) (bs : Bytes) : Bytes :=
  B.take off ++ bs ++ B.drop (off + bs.length)

/-- `XOR(B)`: the exclusive or of all bytes, 0x00 for the empty string (00_scope.md R8). -/
def xorBytes (B : Bytes) : Byte :=
  B.foldl (fun c b => c ^^^ b) 0x00#8

end Sys2Proof.Machine
end

