-- ==== Sys2Proof/Config.lean ====
section
/-! DEFINITION. What an implementation fixes: the configurable parameters of 00_scope.md R7, and the values the spec
leaves open (uninterpreted constants: nothing can evaluate them). The parameters' default values stand in
Machine/Parameters.lean. -/

namespace Sys2Proof

/-- FRAME_BIT_ORDER (30_encoding.md R46): from which end the fields fill bytes 1 and 2 of a frame. -/
inductive FrameBitOrder where
  | lsbFirst
  | msbFirst
  deriving DecidableEq, Repr

/-- The parameters of 00_scope.md R7 that are not fixed by the source, and the three error codes, which the spec leaves open
as parameters (43_message_types.md R152). No operation changes them
(10_state.md R22). -/
structure Config where
  /-- FRAME_BIT_ORDER. -/
  frameBitOrder : FrameBitOrder
  /-- ETHERTYPE_IPV4. -/
  ethertypeIpv4 : BitVec 16
  /-- MAC_BROADCAST. -/
  macBroadcast : Mac
  /-- IP_TOS. -/
  ipTos : Byte
  /-- IP_ID. -/
  ipId : BitVec 16
  /-- IP_FRAG: flags and fragment offset. -/
  ipFrag : BitVec 16
  /-- IP_TTL. -/
  ipTtl : Byte
  /-- UDP_CK_TX. -/
  udpCkTx : BitVec 16
  /-- LEARN_PEER_MAC. -/
  learnPeerMac : Bool
  /-- RX_MAX, the longest packet LT.PARSE is given. DEDUCED (log 11): 16 bits, since 20_memory.md R30 has the offsets
  of a packet string fit in 16 bits. -/
  rxMax : BitVec 16
  /-- ERR_NO_PERMISSION, the byte of the error code NoPermission (43_message_types.md R152, 93_implementation_defined.md U1).
  It and the next two are distinct (`errorCodesDistinct`); the unit never reads them. -/
  errNoPermission : Byte
  /-- ERR_INSUFFICIENT_SPACE. -/
  errInsufficientSpace : Byte
  /-- ERR_FORBIDDEN_MOVE. -/
  errForbiddenMove : Byte
  deriving DecidableEq, Repr

/-- The three error codes an ERROR frame may carry (43_message_types.md R152). -/
inductive ErrorCode where
  | noPermission
  | insufficientSpace
  | forbiddenMove
  deriving DecidableEq, Repr

/-- From this come the bytes of the three error codes of the unit right after reset (`standardConfig`): the spec assigns no
number (43_message_types.md R152). No body: nothing is known of it but that it sends distinct arguments to distinct
bytes, so the codes are any three distinct bytes (log 12). -/
opaque Config.freeErrorNumbering : Equiv.Perm Byte

/-- What LOCAL_MAC holds after the `n`th reset event: unspecified (10_state.md R24), so free. DESIGN CHOICE (log 3),
as for the five below. -/
opaque Config.freeLocalMac : Nat → Mac
/-- What LOCAL_IP holds after the `n`th reset event: unspecified (10_state.md R24). -/
opaque Config.freeLocalIp : Nat → Ip
/-- What LOCAL_PORT holds after the `n`th reset event: unspecified (10_state.md R24). -/
opaque Config.freeLocalPort : Nat → Port
/-- What PEER_MAC holds after the `n`th reset event: unspecified (10_state.md R24). -/
opaque Config.freePeerMac : Nat → Mac
/-- What PEER_IP holds after the `n`th reset event: unspecified (10_state.md R24). -/
opaque Config.freePeerIp : Nat → Ip
/-- What PEER_PORT holds after the `n`th reset event: unspecified (10_state.md R24). -/
opaque Config.freePeerPort : Nat → Port

end Sys2Proof
end

