-- ==== Sys2Proof/Machine/Parameters.lean ====
section
/-! DEFINITION. The numbers of 00_scope.md R7: the constants the source fixes and the defaults the spec gives the
configurable parameters; and the error codes of 43_message_types.md R152. -/

namespace Sys2Proof.Machine

/-- MARKER, byte 0 of a frame. -/
abbrev marker : Byte := 0x7E#8

/-- PAYLOAD_MAX. -/
abbrev payloadMax : Nat := 127

/-- FRAME_HDR. -/
abbrev frameHdr : Nat := 4

/-- FRAME_MAX = FRAME_HDR + PAYLOAD_MAX. -/
abbrev frameMax : Nat := 131

/-- ETH_HDR. -/
abbrev ethHdr : Nat := 14

/-- IP_HDR. -/
abbrev ipHdr : Nat := 20

/-- UDP_HDR. -/
abbrev udpHdr : Nat := 8

/-- PKT_HDR = ETH_HDR + IP_HDR + UDP_HDR. -/
abbrev pktHdr : Nat := 42

/-- IP_PROTO_UDP. -/
abbrev ipProtoUdp : Byte := 17#8

/-- Version 4 and a header of five 32-bit words in one byte (30_encoding.md R51). -/
abbrev ipVersionLength : Byte := 0x45#8

/-- The byte of an error code (43_message_types.md R152). -/
def errorCodeByte (c : Config) : ErrorCode → Byte
  | .noPermission => c.errNoPermission
  | .insufficientSpace => c.errInsufficientSpace
  | .forbiddenMove => c.errForbiddenMove

/-- The three error codes are distinct bytes (43_message_types.md R152, 93_implementation_defined.md U1). -/
def errorCodesDistinct (c : Config) : Bool :=
  c.errNoPermission ≠ c.errInsufficientSpace && c.errNoPermission ≠ c.errForbiddenMove
    && c.errInsufficientSpace ≠ c.errForbiddenMove

/-- Every configurable parameter at its default; the error codes, which have none, are three distinct free bytes
(log 12). -/
def standardConfig : Config where
  frameBitOrder := .lsbFirst
  ethertypeIpv4 := 0x0800#16
  macBroadcast := 0xFFFFFFFFFFFF#48
  ipTos := 0x00#8
  ipId := 0x0000#16
  ipFrag := 0x0000#16
  ipTtl := 64#8
  udpCkTx := 0x0000#16
  learnPeerMac := true
  rxMax := 1514#16
  errNoPermission := Config.freeErrorNumbering 0#8
  errInsufficientSpace := Config.freeErrorNumbering 1#8
  errForbiddenMove := Config.freeErrorNumbering 2#8

end Sys2Proof.Machine
end

