-- ==== Sys2Proof/Machine/Formats.lean ====
section
/-! DEFINITION. The frame format (30_encoding.md R45 to R48, R55): where the fields of a header lie in bytes 1 and 2,
the checksum (40_frame_codec.md R70), and the sixteen message types. -/

namespace Sys2Proof.Machine

/-- The sixteen message types (30_encoding.md R55). -/
inductive MessageType where
  | ack | nack | okAck | start | size | data | textNameAck | videoNameAck | imageNameAck | endOfFile
  | moveRight | moveUp | moveDown | moveLeft | mapUpdate | error
  deriving DecidableEq, Repr

/-- The number the source gives a type (30_encoding.md R55; 90_conflicts.md C5). -/
def typeNumber : MessageType → BitVec 4
  | .ack => 0#4
  | .nack => 1#4
  | .okAck => 2#4
  | .start => 3#4
  | .size => 4#4
  | .data => 5#4
  | .textNameAck => 6#4
  | .videoNameAck => 7#4
  | .imageNameAck => 8#4
  | .endOfFile => 9#4
  | .moveRight => 10#4
  | .moveUp => 11#4
  | .moveDown => 12#4
  | .moveLeft => 13#4
  | .mapUpdate => 14#4
  | .error => 15#4

/-- The type a 4-bit field selects: every value is assigned (30_encoding.md R49). -/
def typeOfNumber (n : BitVec 4) : MessageType :=
  match n.toNat with
  | 0 => .ack
  | 1 => .nack
  | 2 => .okAck
  | 3 => .start
  | 4 => .size
  | 5 => .data
  | 6 => .textNameAck
  | 7 => .videoNameAck
  | 8 => .imageNameAck
  | 9 => .endOfFile
  | 10 => .moveRight
  | 11 => .moveUp
  | 12 => .moveDown
  | 13 => .moveLeft
  | 14 => .mapUpdate
  | _ => .error

/-- `seq[0]`. -/
def seqLow (seq : BitVec 5) : BitVec 1 := seq.extractLsb' 0 1

/-- `seq[4:1]`. -/
def seqHigh (seq : BitVec 5) : BitVec 4 := seq.extractLsb' 1 4

/-- Byte 1 of a frame: the length and sequence bit 0, by FRAME_BIT_ORDER (30_encoding.md R46). -/
def headerByte1 (o : FrameBitOrder) (seq : BitVec 5) (len : BitVec 7) : Byte :=
  match o with
  | .lsbFirst => seqLow seq ++ len
  | .msbFirst => len ++ seqLow seq

/-- Byte 2 of a frame: sequence bits 4 to 1 and the type, by FRAME_BIT_ORDER (30_encoding.md R46). -/
def headerByte2 (o : FrameBitOrder) (seq : BitVec 5) (ty : BitVec 4) : Byte :=
  match o with
  | .lsbFirst => ty ++ seqHigh seq
  | .msbFirst => seqHigh seq ++ ty

/-- The length that byte 1 holds (30_encoding.md R47). -/
def lengthField (o : FrameBitOrder) (b1 : Byte) : BitVec 7 :=
  match o with
  | .lsbFirst => b1.extractLsb' 0 7
  | .msbFirst => b1.extractLsb' 1 7

/-- The sequence bytes 1 and 2 hold (30_encoding.md R47). -/
def sequenceField (o : FrameBitOrder) (b1 b2 : Byte) : BitVec 5 :=
  match o with
  | .lsbFirst => b2.extractLsb' 0 4 ++ b1.extractLsb' 7 1
  | .msbFirst => b2.extractLsb' 4 4 ++ b1.extractLsb' 0 1

/-- The type that byte 2 holds (30_encoding.md R47). -/
def typeField (o : FrameBitOrder) (b2 : Byte) : BitVec 4 :=
  match o with
  | .lsbFirst => b2.extractLsb' 4 4
  | .msbFirst => b2.extractLsb' 0 4

/-- CK of 40_frame_codec.md R70: the fold starts from 0x00 and takes the length, byte 2, the type, and every payload
byte in order. -/
def checksum (len : BitVec 7) (b2 : Byte) (ty : BitVec 4) (payload : Bytes) : Byte :=
  payload.foldl (fun c b => c ^^^ b) (((0x00#8 ^^^ len.setWidth 8) ^^^ b2) ^^^ ty.setWidth 8)

/-- The 7-bit length field of a payload. -/
def payloadLength (payload : Bytes) : BitVec 7 := BitVec.ofNat 7 payload.length

/-- The checksum of the frame that holds these fields (40_frame_codec.md R73). -/
def frameChecksum (o : FrameBitOrder) (seq : BitVec 5) (ty : BitVec 4) (payload : Bytes) : Byte :=
  checksum (payloadLength payload) (headerByte2 o seq ty) ty payload

/-- The bytes of a frame with `ck` in its checksum byte (20_memory.md R36). -/
def frameBytes (o : FrameBitOrder) (seq : BitVec 5) (ty : BitVec 4) (ck : Byte) (payload : Bytes) : Bytes :=
  marker :: headerByte1 o seq (payloadLength payload) :: headerByte2 o seq ty :: ck :: payload

end Sys2Proof.Machine
end

