-- ==== Sys2Proof/Syntax.lean ====
section
/-! DEFINITION. The instructions: one constructor for each row of spec/opcode_table.json. The first ten are the
operations of 30_encoding.md R58 with their operands in that rule's order and at its widths; the next six are the
reserved operation codes of R59; the last sixteen are the frame types of 43_message_types.md. -/

namespace Sys2Proof

/-- A command to the unit, or a frame handed to it. -/
inductive Instr where
  /-- FC.ENCODE, OP 0x1 (40_frame_codec.md R75). -/
  | fcEncode (seq ty : BitVec 8) (payload : Bytes)
  /-- FC.DECODE, OP 0x2 (40_frame_codec.md R80). -/
  | fcDecode (B : Bytes)
  /-- FC.CKSUM, OP 0x3 (40_frame_codec.md R73). -/
  | fcCksum (seq ty : BitVec 8) (payload : Bytes)
  /-- LT.BUILD, OP 0x4 (41_link_headers.md R95). -/
  | ltBuild (F : Bytes)
  /-- LT.PARSE, OP 0x5 (41_link_headers.md R105). -/
  | ltParse (P : Bytes)
  /-- LT.SETUP, OP 0x8 (42_config_ops.md R120). -/
  | ltSetup (mac : Mac) (ip : Ip) (port : Port)
  /-- LT.SETDEST, OP 0x9 (42_config_ops.md R121). -/
  | ltSetdest (ip : Ip) (port : Port)
  /-- LT.SETPEERMAC, OP 0xA (42_config_ops.md R122); `valid` is one bit. -/
  | ltSetpeermac (valid : Bool) (mac : Mac)
  /-- LT.RD, OP 0xB (42_config_ops.md R124). -/
  | ltRd (r : BitVec 3)
  /-- LT.RESET, OP 0xF (42_config_ops.md R126). -/
  | ltReset
  /-- Reserved OP 0x0 with whatever operands (30_encoding.md R59), as the five below. -/
  | reserved0 (operands : Bytes)
  /-- Reserved OP 0x6. -/
  | reserved6 (operands : Bytes)
  /-- Reserved OP 0x7. -/
  | reserved7 (operands : Bytes)
  /-- Reserved OP 0xC. -/
  | reservedC (operands : Bytes)
  /-- Reserved OP 0xD. -/
  | reservedD (operands : Bytes)
  /-- Reserved OP 0xE. -/
  | reservedE (operands : Bytes)
  /-- A frame of type 0 (43_message_types.md R136): its sequence, its checksum byte as it stands on the wire, its
  payload. The length field is the payload's length. So for the fifteen below. -/
  | ack (seq : BitVec 5) (ck : Byte) (payload : Bytes)
  /-- A frame of type 1 (R137). -/
  | nack (seq : BitVec 5) (ck : Byte) (payload : Bytes)
  /-- A frame of type 2 (R138). -/
  | okAck (seq : BitVec 5) (ck : Byte) (payload : Bytes)
  /-- A frame of type 3 (R139). -/
  | start (seq : BitVec 5) (ck : Byte) (payload : Bytes)
  /-- A frame of type 4 (R140). -/
  | size (seq : BitVec 5) (ck : Byte) (payload : Bytes)
  /-- A frame of type 5 (R141). -/
  | data (seq : BitVec 5) (ck : Byte) (payload : Bytes)
  /-- A frame of type 6 (R142). -/
  | textNameAck (seq : BitVec 5) (ck : Byte) (payload : Bytes)
  /-- A frame of type 7 (R143). -/
  | videoNameAck (seq : BitVec 5) (ck : Byte) (payload : Bytes)
  /-- A frame of type 8 (R144). -/
  | imageNameAck (seq : BitVec 5) (ck : Byte) (payload : Bytes)
  /-- A frame of type 9 (R145). -/
  | endOfFile (seq : BitVec 5) (ck : Byte) (payload : Bytes)
  /-- A frame of type 10 (R146). -/
  | moveRight (seq : BitVec 5) (ck : Byte) (payload : Bytes)
  /-- A frame of type 11 (R147). -/
  | moveUp (seq : BitVec 5) (ck : Byte) (payload : Bytes)
  /-- A frame of type 12 (R148). -/
  | moveDown (seq : BitVec 5) (ck : Byte) (payload : Bytes)
  /-- A frame of type 13 (R149). -/
  | moveLeft (seq : BitVec 5) (ck : Byte) (payload : Bytes)
  /-- A frame of type 14 (R150). -/
  | mapUpdate (seq : BitVec 5) (ck : Byte) (payload : Bytes)
  /-- A frame of type 15 (R151). -/
  | error (seq : BitVec 5) (ck : Byte) (payload : Bytes)
  deriving DecidableEq, Repr

end Sys2Proof
end

