-- ==== Sys2Proof/WellFormed.lean ====
section
/-! DEFINITION. Which operands the formats admit: the lengths of byte-string operands (30_encoding.md R58) and of a
frame's payload (R45). Every other operand is in range by its width. -/

namespace Sys2Proof

/-- The longest `payload` or `F` operand: 255 bytes (30_encoding.md R58). -/
abbrev Instr.shortOperandMax : Nat := 255

/-- A frame's payload has at most 127 bytes: its length is a 7-bit field (30_encoding.md R45). -/
abbrev Instr.framePayloadMax : Nat := 127

/-- Every byte-string operand is within the length its format gives it. -/
def Instr.wellFormed (c : Config) : Instr → Bool
  | .fcEncode _ _ payload => payload.length ≤ Instr.shortOperandMax
  | .fcDecode B => B.length ≤ c.rxMax.toNat
  | .fcCksum _ _ payload => payload.length ≤ Instr.shortOperandMax
  | .ltBuild F => F.length ≤ Instr.shortOperandMax
  | .ltParse P => P.length ≤ c.rxMax.toNat
  | .ltSetup _ _ _ => true
  | .ltSetdest _ _ => true
  | .ltSetpeermac _ _ => true
  | .ltRd _ => true
  | .ltReset => true
  | .reserved0 _ => true
  | .reserved6 _ => true
  | .reserved7 _ => true
  | .reservedC _ => true
  | .reservedD _ => true
  | .reservedE _ => true
  | .ack _ _ payload => payload.length ≤ Instr.framePayloadMax
  | .nack _ _ payload => payload.length ≤ Instr.framePayloadMax
  | .okAck _ _ payload => payload.length ≤ Instr.framePayloadMax
  | .start _ _ payload => payload.length ≤ Instr.framePayloadMax
  | .size _ _ payload => payload.length ≤ Instr.framePayloadMax
  | .data _ _ payload => payload.length ≤ Instr.framePayloadMax
  | .textNameAck _ _ payload => payload.length ≤ Instr.framePayloadMax
  | .videoNameAck _ _ payload => payload.length ≤ Instr.framePayloadMax
  | .imageNameAck _ _ payload => payload.length ≤ Instr.framePayloadMax
  | .endOfFile _ _ payload => payload.length ≤ Instr.framePayloadMax
  | .moveRight _ _ payload => payload.length ≤ Instr.framePayloadMax
  | .moveUp _ _ payload => payload.length ≤ Instr.framePayloadMax
  | .moveDown _ _ payload => payload.length ≤ Instr.framePayloadMax
  | .moveLeft _ _ payload => payload.length ≤ Instr.framePayloadMax
  | .mapUpdate _ _ payload => payload.length ≤ Instr.framePayloadMax
  | .error _ _ payload => payload.length ≤ Instr.framePayloadMax

end Sys2Proof
end

