-- ==== Sys2Proof/Decode.lean ====
section
/-! DEFINITION. From the bytes at the unit's port to an instruction, and back. A command record is the byte
`0x0` above OP (30_encoding.md R58), then the operands in that rule's order: fixed-width operands big-endian in whole
bytes, a byte string after its own length. The spec does not say how the record is carried (00_scope.md R5), so this
carrying is a DESIGN CHOICE (log 5). A record that begins with the marker is a frame (30_encoding.md R45, log 6). -/

namespace Sys2Proof

open Machine

/-- Why bytes are no record. -/
inductive DecodeError where
  /-- There is no byte. -/
  | emptyRecord
  /-- The first byte is neither an operation code below 16 nor the marker. -/
  | unknownLead (lead : Byte)
  /-- The record ends before its operands do. -/
  | shortRecord
  /-- Bytes follow the last operand. -/
  | trailingBytes
  /-- A byte string is longer than RX_MAX. -/
  | operandTooLong
  /-- A `valid` byte above 1 or a register byte above 7: bits outside the operand's width are set. -/
  | operandOutOfRange
  deriving DecidableEq, Repr

/-- The operation's instruction, once exactly `n` operand bytes are there. -/
def decodeExact (n : Nat) (operands : Bytes) (i : Instr) : Except DecodeError Instr :=
  if operands.length < n then .error .shortRecord
  else if n < operands.length then .error .trailingBytes
  else .ok i

/-- `seq`, `type` and `payload` (30_encoding.md R58): a byte each, then the payload after a one-byte length. -/
def decodeSeqTypePayload (mk : BitVec 8 → BitVec 8 → Bytes → Instr) : Bytes → Except DecodeError Instr
  | seq :: ty :: len :: payload => decodeExact len.toNat payload (mk seq ty payload)
  | _ => .error .shortRecord

/-- A byte string of at most 255 bytes after a one-byte length. -/
def decodeShortString (mk : Bytes → Instr) : Bytes → Except DecodeError Instr
  | len :: F => decodeExact len.toNat F (mk F)
  | [] => .error .shortRecord

/-- A byte string of at most RX_MAX bytes after a two-byte length. -/
def decodeLongString (c : Config) (mk : Bytes → Instr) : Bytes → Except DecodeError Instr
  | hi :: lo :: B =>
    if c.rxMax.toNat < bigEndian [hi, lo] then .error .operandTooLong
    else decodeExact (bigEndian [hi, lo]) B (mk B)
  | _ => .error .shortRecord

/-- The operands of LT.SETPEERMAC: a byte that is `valid`, then the address. -/
def decodeSetpeermac : Bytes → Except DecodeError Instr
  | valid :: mac =>
    if 1 < valid.toNat then .error .operandOutOfRange
    else decodeExact 6 mac (.ltSetpeermac (valid == 1#8) (BitVec.ofNat 48 (memRead mac 0 6)))
  | [] => .error .shortRecord

/-- The operand of LT.RD: a byte that is the register number. -/
def decodeRd : Bytes → Except DecodeError Instr
  | r :: rest =>
    if 7 < r.toNat then .error .operandOutOfRange
    else decodeExact 0 rest (.ltRd (r.setWidth 3))
  | [] => .error .shortRecord

/-- The operation that an operation code selects (30_encoding.md R58, R59). A reserved code takes whatever follows it
as its operands: IllegalOp comes before any operand is looked at (60_exceptions.md R165; log 14). -/
def decodeCommand (c : Config) (op : BitVec 4) (rest : Bytes) : Except DecodeError Instr :=
  match op.toNat with
  | 0x0 => .ok (.reserved0 rest)
  | 0x1 => decodeSeqTypePayload .fcEncode rest
  | 0x2 => decodeLongString c .fcDecode rest
  | 0x3 => decodeSeqTypePayload .fcCksum rest
  | 0x4 => decodeShortString .ltBuild rest
  | 0x5 => decodeLongString c .ltParse rest
  | 0x6 => .ok (.reserved6 rest)
  | 0x7 => .ok (.reserved7 rest)
  | 0x8 => decodeExact 12 rest (.ltSetup (BitVec.ofNat 48 (memRead rest 0 6)) (BitVec.ofNat 32 (memRead rest 6 4))
      (BitVec.ofNat 16 (memRead rest 10 2)))
  | 0x9 => decodeExact 6 rest (.ltSetdest (BitVec.ofNat 32 (memRead rest 0 4)) (BitVec.ofNat 16 (memRead rest 4 2)))
  | 0xA => decodeSetpeermac rest
  | 0xB => decodeRd rest
  | 0xC => .ok (.reservedC rest)
  | 0xD => .ok (.reservedD rest)
  | 0xE => .ok (.reservedE rest)
  | _ => decodeExact 0 rest .ltReset

/-- The instruction that a frame of a type is (43_message_types.md R136 to R151). -/
def frameInstr (t : MessageType) (seq : BitVec 5) (ck : Byte) (payload : Bytes) : Instr :=
  match t with
  | .ack => .ack seq ck payload
  | .nack => .nack seq ck payload
  | .okAck => .okAck seq ck payload
  | .start => .start seq ck payload
  | .size => .size seq ck payload
  | .data => .data seq ck payload
  | .textNameAck => .textNameAck seq ck payload
  | .videoNameAck => .videoNameAck seq ck payload
  | .imageNameAck => .imageNameAck seq ck payload
  | .endOfFile => .endOfFile seq ck payload
  | .moveRight => .moveRight seq ck payload
  | .moveUp => .moveUp seq ck payload
  | .moveDown => .moveDown seq ck payload
  | .moveLeft => .moveLeft seq ck payload
  | .mapUpdate => .mapUpdate seq ck payload
  | .error => .error seq ck payload

/-- A frame after its marker: the type field selects the instruction, the length field says how many payload bytes
follow the header (30_encoding.md R47, R48, R55). The checksum byte is an operand, not tested here. -/
def decodeFrameRecord (o : FrameBitOrder) : Bytes → Except DecodeError Instr
  | b1 :: b2 :: ck :: payload =>
    decodeExact (lengthField o b1).toNat payload
      (frameInstr (typeOfNumber (typeField o b2)) (sequenceField o b1 b2) ck payload)
  | _ => .error .shortRecord

/-- The instruction a record holds, or why it holds none. -/
def decode (c : Config) : Bytes → Except DecodeError Instr
  | [] => .error .emptyRecord
  | lead :: rest =>
    if lead = marker then decodeFrameRecord c.frameBitOrder rest
    else if 15 < lead.toNat then .error (.unknownLead lead)
    else decodeCommand c (lead.setWidth 4) rest

/-- A byte string operand after its two-byte length. -/
def encodeLongString (B : Bytes) : Bytes := be16 (BitVec.ofNat 16 B.length) ++ B

/-- The record of an instruction (log 5; frames: 30_encoding.md R45, R46). -/
def encode (c : Config) : Instr → Bytes
  | .fcEncode seq ty payload => 0x01#8 :: seq :: ty :: BitVec.ofNat 8 payload.length :: payload
  | .fcDecode B => 0x02#8 :: encodeLongString B
  | .fcCksum seq ty payload => 0x03#8 :: seq :: ty :: BitVec.ofNat 8 payload.length :: payload
  | .ltBuild F => 0x04#8 :: BitVec.ofNat 8 F.length :: F
  | .ltParse P => 0x05#8 :: encodeLongString P
  | .ltSetup mac ip port => 0x08#8 :: (mac6 mac ++ be32 ip ++ be16 port)
  | .ltSetdest ip port => 0x09#8 :: (be32 ip ++ be16 port)
  | .ltSetpeermac valid mac => 0x0A#8 :: (if valid then 1#8 else 0#8) :: mac6 mac
  | .ltRd r => [0x0B#8, r.setWidth 8]
  | .ltReset => [0x0F#8]
  | .reserved0 operands => 0x00#8 :: operands
  | .reserved6 operands => 0x06#8 :: operands
  | .reserved7 operands => 0x07#8 :: operands
  | .reservedC operands => 0x0C#8 :: operands
  | .reservedD operands => 0x0D#8 :: operands
  | .reservedE operands => 0x0E#8 :: operands
  | .ack seq ck payload => frameBytes c.frameBitOrder seq (typeNumber .ack) ck payload
  | .nack seq ck payload => frameBytes c.frameBitOrder seq (typeNumber .nack) ck payload
  | .okAck seq ck payload => frameBytes c.frameBitOrder seq (typeNumber .okAck) ck payload
  | .start seq ck payload => frameBytes c.frameBitOrder seq (typeNumber .start) ck payload
  | .size seq ck payload => frameBytes c.frameBitOrder seq (typeNumber .size) ck payload
  | .data seq ck payload => frameBytes c.frameBitOrder seq (typeNumber .data) ck payload
  | .textNameAck seq ck payload => frameBytes c.frameBitOrder seq (typeNumber .textNameAck) ck payload
  | .videoNameAck seq ck payload => frameBytes c.frameBitOrder seq (typeNumber .videoNameAck) ck payload
  | .imageNameAck seq ck payload => frameBytes c.frameBitOrder seq (typeNumber .imageNameAck) ck payload
  | .endOfFile seq ck payload => frameBytes c.frameBitOrder seq (typeNumber .endOfFile) ck payload
  | .moveRight seq ck payload => frameBytes c.frameBitOrder seq (typeNumber .moveRight) ck payload
  | .moveUp seq ck payload => frameBytes c.frameBitOrder seq (typeNumber .moveUp) ck payload
  | .moveDown seq ck payload => frameBytes c.frameBitOrder seq (typeNumber .moveDown) ck payload
  | .moveLeft seq ck payload => frameBytes c.frameBitOrder seq (typeNumber .moveLeft) ck payload
  | .mapUpdate seq ck payload => frameBytes c.frameBitOrder seq (typeNumber .mapUpdate) ck payload
  | .error seq ck payload => frameBytes c.frameBitOrder seq (typeNumber .error) ck payload

/-- The bytes of a table row's word, first byte at the head (log 10): a FRAME row is one 32-bit word, byte 0 of the
frame in its bits 31 to 24 (30_encoding.md R55); a CMD row is a string of bytes, the first in bits 7 to 0. -/
def tableBytes (nbits w : Nat) : Bytes :=
  if nbits = 32 ∧ BitVec.ofNat 8 (w / 2 ^ 24) = marker then be32 (BitVec.ofNat 32 w)
  else (List.range ((nbits + 7) / 8)).map fun k => BitVec.ofNat 8 (w / 2 ^ (8 * k))

/-- The bytes with the fewest zero bytes after them that make a record (at most `fuel`). -/
def zeroExtend (c : Config) : Nat → Bytes → Bytes
  | 0, B => B
  | fuel + 1, B =>
    match decode c B with
    | .ok _ => B
    | .error _ => zeroExtend c fuel (B ++ [0x00#8])

/-- The record of a table row's word with every operand bit the table does not give it zero: no record needs more than
127 zero bytes, the longest payload of a frame. -/
def tableRecord (c : Config) (nbits w : Nat) : Bytes :=
  zeroExtend c 128 (tableBytes nbits w)

/-- The instruction the decoder reads from a table row's word, at the default parameters, for which the table's
patterns are given (30_encoding.md R55). -/
def decodeTableWord (nbits w : Nat) : Option Instr :=
  match decode standardConfig (tableRecord standardConfig nbits w) with
  | .ok i => some i
  | .error _ => none

end Sys2Proof
end

