-- ==== Sys2Proof/Machine/State.lean ====
section
/-! DEFINITION. The machine's state: the unit's seven registers (10_state.md R10), the parameters it is built with
(00_scope.md R7), its output (the response to the latest command, 30_encoding.md R60) and its input (what the host does
next, 00_scope.md R4). All plain data. -/

namespace Sys2Proof.Machine

/-- Why an operation returned no values: the result codes 1 to 8 of 60_exceptions.md R160. -/
inductive Failure where
  | invalidArgument
  | truncated
  | badMarker
  /-- Kept so that the source's error set is whole; no operation returns it (40_frame_codec.md R82). -/
  | lengthMismatch
  | checksumMismatch
  | discard
  | notConfigured
  | illegalOp
  deriving DecidableEq, Repr

/-- The result values that come with `Ok`, per operation (30_encoding.md R60). -/
inductive Values where
  /-- LT.SETUP, LT.SETDEST, LT.SETPEERMAC, LT.RESET: none. -/
  | none
  /-- FC.ENCODE: `F`. -/
  | frame (F : Bytes)
  /-- FC.DECODE: `seq`, `type`, `len`, `ck`, `payload`. -/
  | fields (seq : BitVec 5) (ty : BitVec 4) (len : BitVec 7) (ck : Byte) (payload : Bytes)
  /-- FC.CKSUM: `ck`. -/
  | checksum (ck : Byte)
  /-- LT.BUILD: `P`. -/
  | packet (P : Bytes)
  /-- LT.PARSE: `F`, `src_mac`, `src_ip`, `src_port`. -/
  | parsed (F : Bytes) (srcMac : Mac) (srcIp : Ip) (srcPort : Port)
  /-- LT.RD: `v`, the register zero-extended. -/
  | register (v : BitVec 48)
  deriving DecidableEq, Repr

/-- One response (30_encoding.md R60): only `Ok` carries values. -/
inductive Response where
  | ok (v : Values)
  | failed (f : Failure)
  deriving DecidableEq, Repr

/-- What the host, or the world through the reset input, does to the unit. DESIGN CHOICE (log 4). -/
inductive HostEvent where
  /-- The host puts a record at the unit's port: a command, or a frame (log 5, log 6). -/
  | issue (record : Bytes)
  /-- A reset between operations (70_reset_and_hazards.md R180). -/
  | reset
  /-- A reset while the operation that `record` commands is in progress (70_reset_and_hazards.md R181, log 9). -/
  | resetDuring (record : Bytes)
  /-- The host issues `second` before it has the response to `first` (70_reset_and_hazards.md R186, log 8). -/
  | overlap (first second : Bytes)
  deriving DecidableEq, Repr

/-- The state of the unit and of what stands at its port. -/
structure State where
  /-- LOCAL_MAC, register 0 (10_state.md R11). -/
  localMac : Mac
  /-- LOCAL_IP, register 1 (10_state.md R12). -/
  localIp : Ip
  /-- LOCAL_PORT, register 2 (10_state.md R13). -/
  localPort : Port
  /-- PEER_MAC, register 3 (10_state.md R14). -/
  peerMac : Mac
  /-- PEER_IP, register 4 (10_state.md R15). -/
  peerIp : Ip
  /-- PEER_PORT, register 5 (10_state.md R16). -/
  peerPort : Port
  /-- STATUS, register 6: bit 0 LOCAL_VALID, bit 1 PEER_VALID, bit 2 PEER_MAC_VALID (10_state.md R17). -/
  status : BitVec 3
  /-- The response to the latest command, none where there is none since reset. The model's own (log 4). -/
  response : Option Response
  /-- Which free reset contents are drawn next. The model's own (log 3). -/
  freeCount : Nat
  /-- What the host does next, oldest first. The model's own (log 4). -/
  host : List HostEvent
  /-- The parameters; no operation changes them (10_state.md R22). Not the unit's state: the model's own (log 1).
  Last, so that two states that differ elsewhere are told apart without its free bytes (log 12). -/
  cfg : Config
  deriving DecidableEq, Repr

/-- Why the machine stops with no next state. -/
inductive Fault where
  /-- Raised by `step` when the host issues a command before the response to the one before: the spec gives the model
  no step (93_implementation_defined.md U13, 92_eei_decisions.md D26; log 8). Safe: nothing is claimed of what follows. -/
  | commandBeforeResponse
  deriving DecidableEq, Repr

/-- Why there is no meaning for what stands at the port. -/
inductive Refusal where
  /-- An instruction the model has no meaning for. Nothing raises it: every instruction has one. Safe. -/
  | notModelled (mnemonic : String)
  /-- Raised by `step` when the bytes at the port are no record of the model's carrying (log 7). Safe: the spec
  describes no such input. -/
  | malformedRecord (e : DecodeError)
  deriving DecidableEq, Repr

/-- The machine right after reset: STATUS = 0b000 (10_state.md R24, 70_reset_and_hazards.md R180), every parameter at its
default (00_scope.md R7; the error codes three distinct free bytes, log 12), the unit idle. The six value registers, which
the spec leaves unspecified, hold 0: DESIGN CHOICE (log 2), unsafe. -/
def State.reset : State where
  localMac := 0#48
  localIp := 0#32
  localPort := 0#16
  peerMac := 0#48
  peerIp := 0#32
  peerPort := 0#16
  status := 0b000#3
  response := none
  freeCount := 0
  host := []
  cfg := standardConfig

end Sys2Proof.Machine
end

