-- ==== Sys2Proof/Machine/Flags.lean ====
section
/-! DEFINITION. The unit's only flags, the three valid bits of STATUS (10_state.md R17, R21). -/

namespace Sys2Proof.Machine

/-- STATUS.LOCAL_VALID, bit 0. -/
def localValid (status : BitVec 3) : Bool := status.getLsbD 0

/-- STATUS.PEER_VALID, bit 1. -/
def peerValid (status : BitVec 3) : Bool := status.getLsbD 1

/-- STATUS.PEER_MAC_VALID, bit 2. -/
def peerMacValid (status : BitVec 3) : Bool := status.getLsbD 2

/-- STATUS.LOCAL_VALID <- 1. -/
def setLocalValid (status : BitVec 3) : BitVec 3 := status ||| 0b001#3

/-- STATUS.PEER_VALID <- 1. -/
def setPeerValid (status : BitVec 3) : BitVec 3 := status ||| 0b010#3

/-- STATUS.PEER_MAC_VALID <- 1. -/
def setPeerMacValid (status : BitVec 3) : BitVec 3 := status ||| 0b100#3

/-- STATUS.PEER_MAC_VALID <- 0. -/
def clearPeerMacValid (status : BitVec 3) : BitVec 3 := status &&& 0b011#3

end Sys2Proof.Machine
end

