-- ==== Sys2Proof/Machine/Ops.lean ====
section
/-! DEFINITION. The named operations on the registers, and the two ways an operation ends. The unit takes no trap
(60_exceptions.md R162): in place of taking an exception stands `fail`, which answers a result code, writes nothing and
leaves the unit ready for the next command (R168, R169). -/

namespace Sys2Proof.Machine

/-- How an operation or a step ends. -/
abbrev Outcome := Host.Outcome State Fault Refusal

/-- The state with a response at the port; nothing else changes. -/
def answered (r : Response) (s : State) : State := { s with response := some r }

/-- The response is returned once, when the operation ends (60_exceptions.md R160). -/
def respond (r : Response) (s : State) : Outcome := .next (answered r s)

/-- `return Ok(v)`. -/
def succeed (v : Values) (s : State) : Outcome := respond (.ok v) s

/-- `return f` for a code other than `Ok`: no register is written (60_exceptions.md R168). -/
def fail (f : Failure) (s : State) : Outcome := respond (.failed f) s

/-- The number of a failure's result code (60_exceptions.md R160). -/
def failureCode : Failure → BitVec 4
  | .invalidArgument => 1#4
  | .truncated => 2#4
  | .badMarker => 3#4
  | .lengthMismatch => 4#4
  | .checksumMismatch => 5#4
  | .discard => 6#4
  | .notConfigured => 7#4
  | .illegalOp => 8#4

/-- The 4-bit result code of a response (60_exceptions.md R160). -/
def responseCode : Response → BitVec 4
  | .ok _ => 0#4
  | .failed f => failureCode f

/-- LT.SETUP's writes (42_config_ops.md R120). -/
def writeLocal (mac : Mac) (ip : Ip) (port : Port) (s : State) : State :=
  { s with localMac := mac, localIp := ip, localPort := port, status := setLocalValid s.status }

/-- PEER_IP, PEER_PORT and STATUS.PEER_VALID are written together (42_config_ops.md R121, 41_link_headers.md R105). -/
def writePeer (ip : Ip) (port : Port) (s : State) : State :=
  { s with peerIp := ip, peerPort := port, status := setPeerValid s.status }

/-- PEER_MAC is written and known (42_config_ops.md R122, 41_link_headers.md R107). -/
def writePeerMac (mac : Mac) (s : State) : State :=
  { s with peerMac := mac, status := setPeerMacValid s.status }

/-- The peer's link address is unknown; PEER_MAC keeps its bits (42_config_ops.md R121, R122). -/
def forgetPeerMac (s : State) : State :=
  { s with status := clearPeerMacValid s.status }

/-- STATUS <- 0b000 (42_config_ops.md R126). -/
def clearStatus (s : State) : State := { s with status := 0b000#3 }

/-- Whether register `r` holds a value: STATUS always does (42_config_ops.md R124, 10_state.md R18). -/
def registerValid (r : BitVec 3) (s : State) : Bool :=
  match r.toNat with
  | 0 => localValid s.status
  | 1 => localValid s.status
  | 2 => localValid s.status
  | 3 => peerMacValid s.status
  | 4 => peerValid s.status
  | 5 => peerValid s.status
  | _ => true

/-- The register numbered `r` (10_state.md R10), zero-extended to 48 bits; register 7 does not exist, and LT.RD tests
for it first (42_config_ops.md R124). -/
def readRegister (r : BitVec 3) (s : State) : BitVec 48 :=
  match r.toNat with
  | 0 => s.localMac
  | 1 => s.localIp.setWidth 48
  | 2 => s.localPort.setWidth 48
  | 3 => s.peerMac
  | 4 => s.peerIp.setWidth 48
  | 5 => s.peerPort.setWidth 48
  | _ => s.status.setWidth 48

/-- Reset (10_state.md R24, 70_reset_and_hazards.md R180): STATUS becomes 0b000, no response is returned, and what the
six value registers hold is unspecified: free values, DESIGN CHOICE (log 3). -/
def hardwareReset (s : State) : State :=
  { s with
    localMac := Config.freeLocalMac s.freeCount
    localIp := Config.freeLocalIp s.freeCount
    localPort := Config.freeLocalPort s.freeCount
    peerMac := Config.freePeerMac s.freeCount
    peerIp := Config.freePeerIp s.freeCount
    peerPort := Config.freePeerPort s.freeCount
    status := 0b000#3
    response := none
    freeCount := s.freeCount + 1 }

end Sys2Proof.Machine
end

