-- ==== Sys2Proof/Machine/Codec.lean ====
section
/-! DEFINITION. The frame codec (40_frame_codec.md): FC.ENCODE, FC.DECODE, FC.CKSUM. Each is a function of its operands
and of FRAME_BIT_ORDER; none reads or writes a register. -/

namespace Sys2Proof.Machine

/-- The bounds of FC.ENCODE and FC.CKSUM: `seq` at most 31, `type` at most 15, at most 127 payload bytes
(40_frame_codec.md R75, R73). -/
def withinBounds (seq ty : BitVec 8) (payload : Bytes) : Bool :=
  seq.toNat ≤ 31 && ty.toNat ≤ 15 && payload.length ≤ payloadMax

/-- The frame of fields within bounds, its checksum computed (40_frame_codec.md R75). -/
def marshal (o : FrameBitOrder) (seq : BitVec 5) (ty : BitVec 4) (payload : Bytes) : Bytes :=
  frameBytes o seq ty (frameChecksum o seq ty payload) payload

/-- FC.DECODE's four tests, in order, and its result (40_frame_codec.md R80). -/
def unmarshal (o : FrameBitOrder) : Bytes → Response
  | m :: b1 :: b2 :: ck :: payload =>
    if m ≠ marker then .failed .badMarker
    else if frameHdr + payload.length ≠ frameHdr + (lengthField o b1).toNat then .failed .truncated
    else if checksum (lengthField o b1) b2 (typeField o b2) payload ≠ ck then .failed .checksumMismatch
    else .ok (.fields (sequenceField o b1 b2) (typeField o b2) (lengthField o b1) ck payload)
  | _ => .failed .truncated

/-- FC.ENCODE (40_frame_codec.md R75). -/
def execFcEncode (seq ty : BitVec 8) (payload : Bytes) (s : State) : Outcome :=
  if withinBounds seq ty payload then
    succeed (.frame (marshal s.cfg.frameBitOrder (seq.setWidth 5) (ty.setWidth 4) payload)) s
  else fail .invalidArgument s

/-- FC.DECODE (40_frame_codec.md R80). -/
def execFcDecode (B : Bytes) (s : State) : Outcome :=
  respond (unmarshal s.cfg.frameBitOrder B) s

/-- FC.CKSUM (40_frame_codec.md R73). -/
def execFcCksum (seq ty : BitVec 8) (payload : Bytes) (s : State) : Outcome :=
  if withinBounds seq ty payload then
    succeed (.checksum (frameChecksum s.cfg.frameBitOrder (seq.setWidth 5) (ty.setWidth 4) payload)) s
  else fail .invalidArgument s

end Sys2Proof.Machine
end

