-- ==== Sys2Proof/Machine/Frames.lean ====
section
/-! DEFINITION. The sixteen frame types (43_message_types.md). The unit gives no type a meaning (R135): a frame at its port
is taken as FC.DECODE takes it, whatever its type (log 6). -/

namespace Sys2Proof.Machine

/-- A frame of a type, with `ck` in its checksum byte, is unmarshalled (43_message_types.md R135, 40_frame_codec.md R80;
DESIGN CHOICE, log 6). -/
def takeFrame (t : MessageType) (seq : BitVec 5) (ck : Byte) (payload : Bytes) (s : State) : Outcome :=
  respond (unmarshal s.cfg.frameBitOrder (frameBytes s.cfg.frameBitOrder seq (typeNumber t) ck payload)) s

/-- The payload of an ERROR frame is one byte, the error code (43_message_types.md R152); the host's software writes and
reads it, not the unit (log 12). -/
def errorPayload (c : Config) (e : ErrorCode) : Bytes := [errorCodeByte c e]

/-- ACK, type 0 (43_message_types.md R136). -/
def execAck (seq : BitVec 5) (ck : Byte) (payload : Bytes) (s : State) : Outcome :=
  takeFrame .ack seq ck payload s

/-- NACK, type 1 (43_message_types.md R137). -/
def execNack (seq : BitVec 5) (ck : Byte) (payload : Bytes) (s : State) : Outcome :=
  takeFrame .nack seq ck payload s

/-- OK_ACK, type 2 (43_message_types.md R138). -/
def execOkAck (seq : BitVec 5) (ck : Byte) (payload : Bytes) (s : State) : Outcome :=
  takeFrame .okAck seq ck payload s

/-- START, type 3 (43_message_types.md R139). -/
def execStart (seq : BitVec 5) (ck : Byte) (payload : Bytes) (s : State) : Outcome :=
  takeFrame .start seq ck payload s

/-- SIZE, type 4 (43_message_types.md R140). -/
def execSize (seq : BitVec 5) (ck : Byte) (payload : Bytes) (s : State) : Outcome :=
  takeFrame .size seq ck payload s

/-- DATA, type 5 (43_message_types.md R141). -/
def execData (seq : BitVec 5) (ck : Byte) (payload : Bytes) (s : State) : Outcome :=
  takeFrame .data seq ck payload s

/-- TEXT_NAME_ACK, type 6 (43_message_types.md R142). -/
def execTextNameAck (seq : BitVec 5) (ck : Byte) (payload : Bytes) (s : State) : Outcome :=
  takeFrame .textNameAck seq ck payload s

/-- VIDEO_NAME_ACK, type 7 (43_message_types.md R143). -/
def execVideoNameAck (seq : BitVec 5) (ck : Byte) (payload : Bytes) (s : State) : Outcome :=
  takeFrame .videoNameAck seq ck payload s

/-- IMAGE_NAME_ACK, type 8 (43_message_types.md R144). -/
def execImageNameAck (seq : BitVec 5) (ck : Byte) (payload : Bytes) (s : State) : Outcome :=
  takeFrame .imageNameAck seq ck payload s

/-- END_OF_FILE, type 9 (43_message_types.md R145). -/
def execEndOfFile (seq : BitVec 5) (ck : Byte) (payload : Bytes) (s : State) : Outcome :=
  takeFrame .endOfFile seq ck payload s

/-- MOVE_RIGHT, type 10 (43_message_types.md R146). -/
def execMoveRight (seq : BitVec 5) (ck : Byte) (payload : Bytes) (s : State) : Outcome :=
  takeFrame .moveRight seq ck payload s

/-- MOVE_UP, type 11 (43_message_types.md R147). -/
def execMoveUp (seq : BitVec 5) (ck : Byte) (payload : Bytes) (s : State) : Outcome :=
  takeFrame .moveUp seq ck payload s

/-- MOVE_DOWN, type 12 (43_message_types.md R148). -/
def execMoveDown (seq : BitVec 5) (ck : Byte) (payload : Bytes) (s : State) : Outcome :=
  takeFrame .moveDown seq ck payload s

/-- MOVE_LEFT, type 13 (43_message_types.md R149). -/
def execMoveLeft (seq : BitVec 5) (ck : Byte) (payload : Bytes) (s : State) : Outcome :=
  takeFrame .moveLeft seq ck payload s

/-- MAP_UPDATE, type 14 (43_message_types.md R150). -/
def execMapUpdate (seq : BitVec 5) (ck : Byte) (payload : Bytes) (s : State) : Outcome :=
  takeFrame .mapUpdate seq ck payload s

/-- ERROR, type 15 (43_message_types.md R151). -/
def execError (seq : BitVec 5) (ck : Byte) (payload : Bytes) (s : State) : Outcome :=
  takeFrame .error seq ck payload s

end Sys2Proof.Machine
end

