-- ==== Sys2Proof/Machine/Link.lean ====
section
/-! DEFINITION. The header builder and parser (41_link_headers.md): LT.BUILD, LT.PARSE and the IPv4 header checksum. -/

namespace Sys2Proof.Machine

/-- The sum of a header's ten big-endian 16-bit words (41_link_headers.md R90). -/
def wordSum (H : Bytes) : Nat :=
  ((List.range 10).map fun k => memRead H (2 * k) 2).sum

/-- The end-around carry of 41_link_headers.md R90: while `s > 0xFFFF`, at most `rounds` times. -/
def foldCarry : Nat → Nat → Nat
  | 0, s => s
  | rounds + 1, s => if 0xFFFF < s then foldCarry rounds (s % 0x10000 + s / 0x10000) else s

/-- The folded sum of a header: two rounds are enough (41_link_headers.md R90, R91). -/
def foldedSum (H : Bytes) : Nat := foldCarry 2 (wordSum H)

/-- IPCK of 41_link_headers.md R90: the 16-bit complement of the folded sum. -/
def ipck (H : Bytes) : BitVec 16 := ~~~ (BitVec.ofNat 16 (foldedSum H))

/-- The Ethernet header LT.BUILD writes (41_link_headers.md R95). -/
def ethHeader (c : Config) (dmac smac : Mac) : Bytes :=
  mac6 dmac ++ mac6 smac ++ be16 c.ethertypeIpv4

/-- `IP0` of 41_link_headers.md R95: the IPv4 header of a packet with an `n`-byte frame, its checksum field zero. -/
def ipHeaderZero (c : Config) (n : Nat) (src dst : Ip) : Bytes :=
  [ipVersionLength, c.ipTos] ++ be16 (BitVec.ofNat 16 (ipHdr + udpHdr + n)) ++ be16 c.ipId ++ be16 c.ipFrag
    ++ [c.ipTtl, ipProtoUdp] ++ [0x00#8, 0x00#8] ++ be32 src ++ be32 dst

/-- The IPv4 header with its checksum in place (41_link_headers.md R95). -/
def ipHeader (c : Config) (n : Nat) (src dst : Ip) : Bytes :=
  memWrite (ipHeaderZero c n src dst) 10 (be16 (ipck (ipHeaderZero c n src dst)))

/-- The UDP header of a packet with an `n`-byte frame (41_link_headers.md R95). -/
def udpHeader (c : Config) (n : Nat) (src dst : Port) : Bytes :=
  be16 src ++ be16 dst ++ be16 (BitVec.ofNat 16 (udpHdr + n)) ++ be16 c.udpCkTx

/-- The Ethernet destination: PEER_MAC when it is known, else the broadcast address (41_link_headers.md R97). -/
def destinationMac (s : State) : Mac :=
  if peerMacValid s.status then s.peerMac else s.cfg.macBroadcast

/-- The packet LT.BUILD makes of a frame (41_link_headers.md R95). -/
def buildPacket (s : State) (F : Bytes) : Bytes :=
  ethHeader s.cfg (destinationMac s) s.localMac ++ ipHeader s.cfg F.length s.localIp s.peerIp
    ++ udpHeader s.cfg F.length s.localPort s.peerPort ++ F

/-- LT.BUILD (41_link_headers.md R95, R96): NotConfigured before the length test (60_exceptions.md R165). -/
def execLtBuild (F : Bytes) (s : State) : Outcome :=
  if localValid s.status && peerValid s.status then
    if frameMax < F.length then fail .invalidArgument s
    else succeed (.packet (buildPacket s F)) s
  else fail .notConfigured s

/-- The UDP length of a received packet (41_link_headers.md R101). -/
def udpLength (P : Bytes) : Nat := memRead P 38 2

/-- ACCEPT of 41_link_headers.md R100, its tests from left to right; nothing else is tested (R102). -/
def accepts (s : State) (P : Bytes) : Bool :=
  pktHdr ≤ P.length
    && memRead P 12 2 == s.cfg.ethertypeIpv4.toNat
    && byteAt P 23 == ipProtoUdp
    && memRead P 30 4 == s.localIp.toNat
    && memRead P 36 2 == s.localPort.toNat
    && udpHdr ≤ udpLength P
    && 34 + udpLength P ≤ P.length

/-- The frame of an accepted packet: what the UDP length covers after its header (41_link_headers.md R101). -/
def packetFrame (P : Bytes) : Bytes := slice P 42 (34 + udpLength P)

/-- The Ethernet source of a packet (20_memory.md R37). -/
def sourceMac (P : Bytes) : Mac := BitVec.ofNat 48 (memRead P 6 6)

/-- The IPv4 source of a packet (20_memory.md R37). -/
def sourceIp (P : Bytes) : Ip := BitVec.ofNat 32 (memRead P 26 4)

/-- The UDP source port of a packet (20_memory.md R37). -/
def sourcePort (P : Bytes) : Port := BitVec.ofNat 16 (memRead P 34 2)

/-- Learning (41_link_headers.md R107): the peer's IP and port always, its link address when LEARN_PEER_MAC. -/
def learnPeer (P : Bytes) (s : State) : State :=
  if s.cfg.learnPeerMac then writePeerMac (sourceMac P) (writePeer (sourceIp P) (sourcePort P) s)
  else writePeer (sourceIp P) (sourcePort P) s

/-- LT.PARSE (41_link_headers.md R105, R106). -/
def execLtParse (P : Bytes) (s : State) : Outcome :=
  if localValid s.status then
    if accepts s P then
      succeed (.parsed (packetFrame P) (sourceMac P) (sourceIp P) (sourcePort P)) (learnPeer P s)
    else fail .discard s
  else fail .notConfigured s

end Sys2Proof.Machine
end

