-- ==== Sys2Proof/Machine/Reserved.lean ====
section
/-! DEFINITION. The reserved operation codes (30_encoding.md R59): `IllegalOp`, whatever the operands, no state changed. -/

namespace Sys2Proof.Machine

/-- What every reserved code does: no operand is looked at (60_exceptions.md R165). -/
def illegalOp (_operands : Bytes) (s : State) : Outcome := fail .illegalOp s

/-- RESERVED_0x0 (30_encoding.md R59). -/
def execReserved0 (operands : Bytes) (s : State) : Outcome := illegalOp operands s

/-- RESERVED_0x6 (30_encoding.md R59). -/
def execReserved6 (operands : Bytes) (s : State) : Outcome := illegalOp operands s

/-- RESERVED_0x7 (30_encoding.md R59). -/
def execReserved7 (operands : Bytes) (s : State) : Outcome := illegalOp operands s

/-- RESERVED_0xC (30_encoding.md R59). -/
def execReservedC (operands : Bytes) (s : State) : Outcome := illegalOp operands s

/-- RESERVED_0xD (30_encoding.md R59). -/
def execReservedD (operands : Bytes) (s : State) : Outcome := illegalOp operands s

/-- RESERVED_0xE (30_encoding.md R59). -/
def execReservedE (operands : Bytes) (s : State) : Outcome := illegalOp operands s

end Sys2Proof.Machine
end

