-- ==== Sys2Proof/Machine/Setup.lean ====
section
/-! DEFINITION. Setup, read-back and reset by command (42_config_ops.md). -/

namespace Sys2Proof.Machine

/-- LT.SETUP (42_config_ops.md R120): every value is stored as given (R123). -/
def execLtSetup (mac : Mac) (ip : Ip) (port : Port) (s : State) : Outcome :=
  succeed .none (writeLocal mac ip port s)

/-- LT.SETDEST (42_config_ops.md R121): the new destination's link address is unknown. -/
def execLtSetdest (ip : Ip) (port : Port) (s : State) : Outcome :=
  succeed .none (forgetPeerMac (writePeer ip port s))

/-- LT.SETPEERMAC (42_config_ops.md R122): with `valid` = 0 the address operand is ignored. -/
def execLtSetpeermac (valid : Bool) (mac : Mac) (s : State) : Outcome :=
  if valid then succeed .none (writePeerMac mac s) else succeed .none (forgetPeerMac s)

/-- LT.RD (42_config_ops.md R124): register 7 before the valid bit (60_exceptions.md R165). -/
def execLtRd (r : BitVec 3) (s : State) : Outcome :=
  if r = 7#3 then fail .invalidArgument s
  else if registerValid r s then succeed (.register (readRegister r s)) s
  else fail .notConfigured s

/-- LT.RESET (42_config_ops.md R126): the value registers keep their bits (10_state.md R24). -/
def execLtReset (s : State) : Outcome :=
  succeed .none (clearStatus s)

end Sys2Proof.Machine
end

