-- ==== Sys2Proof/Machine/Dispatch.lean ====
section
/-! DEFINITION. One arm per instruction, each one call of its meaning. -/

namespace Sys2Proof.Machine

def exec (i : Instr) (s : State) : Host.Outcome State Fault Refusal :=
  match i with
  | .fcEncode seq ty payload => Sys2Proof.Machine.execFcEncode seq ty payload s
  | .fcDecode B => Sys2Proof.Machine.execFcDecode B s
  | .fcCksum seq ty payload => Sys2Proof.Machine.execFcCksum seq ty payload s
  | .ltBuild F => Sys2Proof.Machine.execLtBuild F s
  | .ltParse P => Sys2Proof.Machine.execLtParse P s
  | .ltSetup mac ip port => Sys2Proof.Machine.execLtSetup mac ip port s
  | .ltSetdest ip port => Sys2Proof.Machine.execLtSetdest ip port s
  | .ltSetpeermac valid mac => Sys2Proof.Machine.execLtSetpeermac valid mac s
  | .ltRd r => Sys2Proof.Machine.execLtRd r s
  | .ltReset => Sys2Proof.Machine.execLtReset s
  | .reserved0 operands => Sys2Proof.Machine.execReserved0 operands s
  | .reserved6 operands => Sys2Proof.Machine.execReserved6 operands s
  | .reserved7 operands => Sys2Proof.Machine.execReserved7 operands s
  | .reservedC operands => Sys2Proof.Machine.execReservedC operands s
  | .reservedD operands => Sys2Proof.Machine.execReservedD operands s
  | .reservedE operands => Sys2Proof.Machine.execReservedE operands s
  | .ack seq ck payload => Sys2Proof.Machine.execAck seq ck payload s
  | .nack seq ck payload => Sys2Proof.Machine.execNack seq ck payload s
  | .okAck seq ck payload => Sys2Proof.Machine.execOkAck seq ck payload s
  | .start seq ck payload => Sys2Proof.Machine.execStart seq ck payload s
  | .size seq ck payload => Sys2Proof.Machine.execSize seq ck payload s
  | .data seq ck payload => Sys2Proof.Machine.execData seq ck payload s
  | .textNameAck seq ck payload => Sys2Proof.Machine.execTextNameAck seq ck payload s
  | .videoNameAck seq ck payload => Sys2Proof.Machine.execVideoNameAck seq ck payload s
  | .imageNameAck seq ck payload => Sys2Proof.Machine.execImageNameAck seq ck payload s
  | .endOfFile seq ck payload => Sys2Proof.Machine.execEndOfFile seq ck payload s
  | .moveRight seq ck payload => Sys2Proof.Machine.execMoveRight seq ck payload s
  | .moveUp seq ck payload => Sys2Proof.Machine.execMoveUp seq ck payload s
  | .moveDown seq ck payload => Sys2Proof.Machine.execMoveDown seq ck payload s
  | .moveLeft seq ck payload => Sys2Proof.Machine.execMoveLeft seq ck payload s
  | .mapUpdate seq ck payload => Sys2Proof.Machine.execMapUpdate seq ck payload s
  | .error seq ck payload => Sys2Proof.Machine.execError seq ck payload s

end Sys2Proof.Machine
end

