-- ==== Sys2Proof/Machine/Port.lean ====
section
/-! DEFINITION. The unit's port: what the next step finds there. The model's `fetch`, in place of instruction fetch, which
the unit does not have (10_state.md R20, 20_memory.md R40). -/

namespace Sys2Proof.Machine

/-- What a step finds at the port. -/
inductive Fetched where
  /-- Nothing: between commands the unit does nothing and keeps its registers (60_exceptions.md R177). -/
  | idle
  /-- An instruction, and the state once its record is taken from the port. -/
  | instruction (i : Instr) (s : State)
  /-- A reset, and the state after it. -/
  | reset (s : State)
  /-- A record the decoder rejects. -/
  | malformed (e : DecodeError)
  /-- A command before the previous response. -/
  | overlap
  deriving DecidableEq, Repr

/-- The state once the oldest host event is taken from the port. -/
def takeEvent (s : State) : State := { s with host := s.host.tail }

/-- The oldest host event is taken, and a record decoded: a command is used once and not stored (20_memory.md R40). A
reset during an operation abandons it: no response, none of its writes (70_reset_and_hazards.md R181; log 9). -/
def fetch (s : State) : Fetched :=
  match s.host with
  | [] => .idle
  | .issue record :: _ =>
    match decode s.cfg record with
    | .ok i => .instruction i (takeEvent s)
    | .error e => .malformed e
  | .reset :: _ => .reset (hardwareReset (takeEvent s))
  | .resetDuring _ :: _ => .reset (hardwareReset (takeEvent s))
  | .overlap _ _ :: _ => .overlap

/-- The state with one more host event to come, before all others. -/
def offer (e : HostEvent) (s : State) : State := { s with host := e :: s.host }

end Sys2Proof.Machine
end

