-- ==== Sys2Proof/Machine/Step.lean ====
section
/-! DEFINITION. One step: the unit takes what the host does next and executes it as one atomic operation
(00_scope.md R4, 20_memory.md R38). -/

namespace Sys2Proof.Machine

/-- One step. -/
def step (s : State) : Host.Outcome State Fault Refusal :=
  match fetch s with
  | .idle => .next s
  | .instruction i t => exec i t
  | .reset t => .next t
  | .malformed e => .refused (.malformedRecord e)
  | .overlap => .fault .commandBeforeResponse

/-- The state in which the host issues, as the very next thing, the record of a table row's word (log 10). -/
def State.withFetchWord (s : State) (nbits w : Nat) : State :=
  offer (.issue (tableRecord s.cfg nbits w)) s

end Sys2Proof.Machine
end

