-- ==== Sys2Proof/Machine/Pseudo.lean ====
section
/-! DEFINITION. The two pseudo-operations (30_encoding.md R62): fixed sequences of two operations that the host issues one
after the other; they have no operation code and so no constructor of Instr (log 18). -/

namespace Sys2Proof.Machine

/-- LT.SEND (42_config_ops.md R128): FC.ENCODE, then LT.BUILD of its frame. -/
def ltSend (seq ty : BitVec 8) (payload : Bytes) (s : State) : Outcome :=
  match exec (.fcEncode seq ty payload) s with
  | .next s1 =>
    match s1.response with
    | some (.ok (.frame F)) => exec (.ltBuild F) s1
    | _ => .next s1
  | other => other

/-- The source addresses that LT.RECV keeps beside the decoded fields (42_config_ops.md R129). -/
structure Source where
  mac : Mac
  ip : Ip
  port : Port
  deriving DecidableEq, Repr

/-- LT.RECV (42_config_ops.md R129): LT.PARSE, then FC.DECODE of its frame; the source addresses of the first are kept
beside the second's result when that is `Ok`. -/
def ltRecv (P : Bytes) (s : State) : Outcome × Option Source :=
  match exec (.ltParse P) s with
  | .next s1 =>
    match s1.response with
    | some (.ok (.parsed F mac ip port)) =>
      match exec (.fcDecode F) s1 with
      | .next s2 =>
        match s2.response with
        | some (.ok _) => (.next s2, some ⟨mac, ip, port⟩)
        | _ => (.next s2, none)
      | other => (other, none)
    | _ => (.next s1, none)
  | other => (other, none)

end Sys2Proof.Machine
end

