-- ==== Sys2Proof/Safety.lean ====
section
/-! DEFINITION. The terms claims are made in: which responses the response format admits (30_encoding.md R60), when two
states look alike to the host (10_state.md R18, R24), and the state invariant. -/

namespace Sys2Proof.Safety

open Machine

/-- The result values are of the sizes 30_encoding.md R60 gives them. -/
def valuesFit (c : Config) : Values → Bool
  | .none => true
  | .frame F => frameHdr ≤ F.length && F.length ≤ frameMax
  | .fields _ _ len _ payload => payload.length == len.toNat
  | .checksum _ => true
  | .packet P => pktHdr ≤ P.length && P.length ≤ pktHdr + frameMax
  | .parsed F _ _ _ => F.length + pktHdr ≤ c.rxMax.toNat
  | .register _ => true

/-- A response of the format of 30_encoding.md R60, with a code some operation returns (60_exceptions.md R160). -/
def responseFits (c : Config) : Response → Bool
  | .ok v => valuesFit c v
  | .failed f => f ≠ .lengthMismatch

/-- The responses 30_encoding.md R60 lists for an instruction (a frame row: those of FC.DECODE, log 6). -/
def listedResponse : Instr → Response → Bool
  | .fcEncode _ _ _, .ok (.frame _) => true
  | .fcEncode _ _ _, .failed .invalidArgument => true
  | .fcCksum _ _ _, .ok (.checksum _) => true
  | .fcCksum _ _ _, .failed .invalidArgument => true
  | .ltBuild _, .ok (.packet _) => true
  | .ltBuild _, .failed .invalidArgument => true
  | .ltBuild _, .failed .notConfigured => true
  | .ltParse _, .ok (.parsed _ _ _ _) => true
  | .ltParse _, .failed .discard => true
  | .ltParse _, .failed .notConfigured => true
  | .ltSetup _ _ _, .ok .none => true
  | .ltSetdest _ _, .ok .none => true
  | .ltSetpeermac _ _, .ok .none => true
  | .ltReset, .ok .none => true
  | .ltRd _, .ok (.register _) => true
  | .ltRd _, .failed .invalidArgument => true
  | .ltRd _, .failed .notConfigured => true
  | .reserved0 _, .failed .illegalOp => true
  | .reserved6 _, .failed .illegalOp => true
  | .reserved7 _, .failed .illegalOp => true
  | .reservedC _, .failed .illegalOp => true
  | .reservedD _, .failed .illegalOp => true
  | .reservedE _, .failed .illegalOp => true
  | .fcEncode _ _ _, _ => false
  | .fcCksum _ _ _, _ => false
  | .ltBuild _, _ => false
  | .ltParse _, _ => false
  | .ltSetup _ _ _, _ => false
  | .ltSetdest _ _, _ => false
  | .ltSetpeermac _ _, _ => false
  | .ltReset, _ => false
  | .ltRd _, _ => false
  | .reserved0 _, _ => false
  | .reserved6 _, _ => false
  | .reserved7 _, _ => false
  | .reservedC _, _ => false
  | .reservedD _, _ => false
  | .reservedE _, _ => false
  | _, .ok (.fields _ _ _ _ _) => true
  | _, .failed .truncated => true
  | _, .failed .badMarker => true
  | _, .failed .checksumMismatch => true
  | _, _ => false

/-- The response at the port, if any, is of the format of 30_encoding.md R60. -/
def portFits (s : State) : Bool :=
  match s.response with
  | none => true
  | some r => responseFits s.cfg r

/-- The invariant every step keeps: the error codes are distinct (43_message_types.md R152), and the response at the port is
of the format of 30_encoding.md R60. -/
def wellFormedState (s : State) : Bool := errorCodesDistinct s.cfg && portFits s

/-- Two states that no operation can tell apart (10_state.md R18): they agree on everything but the value registers whose
valid bit is 0, whose content is never observed, and the model's count of free reset contents. -/
structure SameView (s t : State) : Prop where
  cfg : s.cfg = t.cfg
  status : s.status = t.status
  response : s.response = t.response
  host : s.host = t.host
  localRegisters : localValid s.status = true →
    s.localMac = t.localMac ∧ s.localIp = t.localIp ∧ s.localPort = t.localPort
  peerRegisters : peerValid s.status = true → s.peerIp = t.peerIp ∧ s.peerPort = t.peerPort
  peerMacRegister : peerMacValid s.status = true → s.peerMac = t.peerMac

/-- Two ends of a step that no operation can tell apart. -/
def sameOutcome : Outcome → Outcome → Prop
  | .next s, .next t => SameView s t
  | .fault f, .fault g => f = g
  | .refused r, .refused q => r = q
  | .next _, .fault _ => False
  | .next _, .refused _ => False
  | .fault _, .next _ => False
  | .fault _, .refused _ => False
  | .refused _, .next _ => False
  | .refused _, .fault _ => False

/-- The seven registers of 10_state.md R10 and the parameters hold the same in both states. -/
structure SameRegisters (s t : State) : Prop where
  cfg : s.cfg = t.cfg
  localMac : s.localMac = t.localMac
  localIp : s.localIp = t.localIp
  localPort : s.localPort = t.localPort
  peerMac : s.peerMac = t.peerMac
  peerIp : s.peerIp = t.peerIp
  peerPort : s.peerPort = t.peerPort
  status : s.status = t.status

end Sys2Proof.Safety
end

