-- ==== Sys2Proof/Certificates/Slice0/Obligations.lean ====
section
/-! DEFINITION. What the provers are asked to prove of the unit. Each docstring cites the rule of spec/ it formalises. A
response stands at the port (log 4): `answered r s` is `s` with the response `r` there and every register, parameter and
pending host event as in `s`. -/

open Sys2Proof Sys2Proof.Machine Sys2Proof.Safety

/-! ### The port and the step -/

/-- A record at the head of the port that decodes to an instruction is executed, on the state without that record
(20_memory.md R38, R40; the port is log 4). -/
def Obligations.StepRunsDecodedInstruction : Prop :=
  ∀ (s : State) (record : Bytes) (rest : List HostEvent) (i : Instr),
    s.host = .issue record :: rest → decode s.cfg record = .ok i → step s = exec i { s with host := rest }

/-- With nothing from the host a step changes nothing (60_exceptions.md R177). -/
def Obligations.IdleStepKeepsEverything : Prop :=
  ∀ s : State, s.host = [] → step s = .next s

/-- A reset, also one that arrives while an operation is in progress, answers nothing, writes nothing of that operation,
and clears STATUS (70_reset_and_hazards.md R180, R181; the events are log 4 and log 9). The value registers hold free values
(log 3), of which nothing is said. -/
def Obligations.ResetEventAbandonsOperation : Prop :=
  ∀ (s : State) (record : Bytes) (rest : List HostEvent),
    step { s with host := .resetDuring record :: rest } = step { s with host := .reset :: rest } ∧
      ∃ t, step { s with host := .reset :: rest } = .next t ∧
        t.status = 0b000#3 ∧ t.response = none ∧ t.cfg = s.cfg ∧ t.host = rest

/-- A command before the previous response has no step, and bytes that are no record are refused by name with what is
wrong with them (70_reset_and_hazards.md R186; log 7, log 8). -/
def Obligations.PortStopsByName : Prop :=
  (∀ (s : State) (first second : Bytes) (rest : List HostEvent),
      s.host = .overlap first second :: rest → step s = .fault .commandBeforeResponse) ∧
    (∀ (s : State) (record : Bytes) (rest : List HostEvent) (e : DecodeError),
      s.host = .issue record :: rest → decode s.cfg record = .error e → step s = .refused (.malformedRecord e)) ∧
    (∀ (c : Config) (lead : Byte) (operands : Bytes),
      15 < lead.toNat → lead ≠ 0x7E#8 → decode c (lead :: operands) = .error (.unknownLead lead))

/-- A reserved operation code answers `IllegalOp` before any operand is looked at: whatever bytes follow it, the step
answers so and changes nothing else (30_encoding.md R59, 60_exceptions.md R165; the record's bytes are log 5). -/
def Obligations.ReservedCodeBeforeOperands : Prop :=
  ∀ (s : State) (op : Byte) (operands : Bytes) (rest : List HostEvent),
    op ∈ [0x00#8, 0x06#8, 0x07#8, 0x0C#8, 0x0D#8, 0x0E#8] → s.host = .issue (op :: operands) :: rest →
      step s = .next (answered (.failed .illegalOp) { s with host := rest })

/-! ### Encoding -/

/-- Decoding the record of a well-formed instruction gives the instruction back, every operand at every value its format
admits, for every value of the parameters (30_encoding.md R45 to R47, R58; the carrying is log 5). -/
def Obligations.DecodeOfEncode : Prop :=
  ∀ (c : Config) (i : Instr), i.wellFormed c = true → decode c (encode c i) = .ok i

/-- A record that decodes is the one record of the instruction it decodes to, and that instruction is well-formed: no bit
of a record is ignored (30_encoding.md R45, R49, R58; the carrying is log 5). -/
def Obligations.DecodedRecordIsCanonical : Prop :=
  ∀ (c : Config) (record : Bytes) (i : Instr),
    decode c record = .ok i → i.wellFormed c = true ∧ encode c i = record

/-- Words written out by hand from the formats decode to the instructions they stand for (30_encoding.md R46, R58;
43_message_types.md R139, R141; the carrying of commands is log 5). -/
def Obligations.HandWrittenWordsDecode : Prop :=
  decode standardConfig [0x01#8, 0x05#8, 0x05#8, 0x03#8, 0x48#8, 0x69#8, 0x21#8]
      = .ok (.fcEncode 5#8 5#8 [0x48#8, 0x69#8, 0x21#8]) ∧
    decode standardConfig [0x09#8, 0xC0#8, 0xA8#8, 0x00#8, 0x14#8, 0x17#8, 0x70#8]
      = .ok (.ltSetdest 0xC0A80014#32 6000#16) ∧
    decode standardConfig [0x0A#8, 0x01#8, 0x02#8, 0x00#8, 0x00#8, 0x00#8, 0x00#8, 0x02#8]
      = .ok (.ltSetpeermac true 0x020000000002#48) ∧
    decode standardConfig [0x0B#8, 0x04#8] = .ok (.ltRd 4#3) ∧
    decode standardConfig [0x7E#8, 0x00#8, 0x35#8, 0x36#8] = .ok (.start 10#5 0x36#8 []) ∧
    decode standardConfig [0x7E#8, 0x03#8, 0x58#8, 0x5E#8, 0x48#8, 0x69#8, 0x21#8]
      = .ok (.data 16#5 0x5E#8 [0x48#8, 0x69#8, 0x21#8])

/-- The sixteen types and their numbers (30_encoding.md R55): the number selects the type and the type has the number. -/
def Obligations.MessageTypesAreNumbered : Prop :=
  (List.map typeNumber [.ack, .nack, .okAck, .start, .size, .data, .textNameAck, .videoNameAck, .imageNameAck,
      .endOfFile, .moveRight, .moveUp, .moveDown, .moveLeft, .mapUpdate, .error]
    = [0#4, 1#4, 2#4, 3#4, 4#4, 5#4, 6#4, 7#4, 8#4, 9#4, 10#4, 11#4, 12#4, 13#4, 14#4, 15#4]) ∧
    (∀ n : BitVec 4, typeNumber (typeOfNumber n) = n)

/-- The result codes and their numbers (60_exceptions.md R160). -/
def Obligations.ResultCodesAreNumbered : Prop :=
  (∀ v, responseCode (.ok v) = 0#4) ∧
    List.map (fun f => responseCode (.failed f)) [.invalidArgument, .truncated, .badMarker, .lengthMismatch,
        .checksumMismatch, .discard, .notConfigured, .illegalOp]
      = [1#4, 2#4, 3#4, 4#4, 5#4, 6#4, 7#4, 8#4]

/-- The three fields of STATUS are its bits 0, 1 and 2 (10_state.md R17), and STATUS is nothing else. -/
def Obligations.StatusIsThreeValidBits : Prop :=
  (∀ status : BitVec 3, localValid status = status.getLsbD 0 ∧ peerValid status = status.getLsbD 1 ∧
      peerMacValid status = status.getLsbD 2) ∧
    (∀ a b : BitVec 3, localValid a = localValid b → peerValid a = peerValid b → peerMacValid a = peerMacValid b → a = b)

/-! ### The frame codec -/

/-- FC.ENCODE (40_frame_codec.md R75, R70): the bounds, else the frame's bytes by shifts and masks, with the checksum of the
four terms; no register or flag written. -/
def Obligations.FcEncodeResult : Prop :=
  ∀ (s : State) (seq ty : BitVec 8) (payload : Bytes),
    let len : Byte := BitVec.ofNat 8 payload.length
    let b1 : Byte := match s.cfg.frameBitOrder with
      | .lsbFirst => ((seq &&& 1#8) <<< 7) ||| len
      | .msbFirst => (len <<< 1) ||| (seq &&& 1#8)
    let b2 : Byte := match s.cfg.frameBitOrder with
      | .lsbFirst => (ty <<< 4) ||| (seq >>> 1)
      | .msbFirst => ((seq >>> 1) <<< 4) ||| ty
    exec (.fcEncode seq ty payload) s = .next (answered
      (if 31 < seq.toNat ∨ 15 < ty.toNat ∨ 127 < payload.length then .failed .invalidArgument
        else .ok (.frame ([0x7E#8, b1, b2, len ^^^ b2 ^^^ ty ^^^ xorBytes payload] ++ payload))) s)

/-- FC.CKSUM (40_frame_codec.md R73): InvalidArgument exactly when FC.ENCODE answers it, else byte 3 of FC.ENCODE's frame,
which is the checksum of the length, byte 2, the type and the payload. -/
def Obligations.FcCksumResult : Prop :=
  ∀ (s : State) (seq ty : BitVec 8) (payload : Bytes),
    if 31 < seq.toNat ∨ 15 < ty.toNat ∨ 127 < payload.length then
      exec (.fcCksum seq ty payload) s = .next (answered (.failed .invalidArgument) s) ∧
        exec (.fcEncode seq ty payload) s = .next (answered (.failed .invalidArgument) s)
    else
      ∃ F : Bytes, exec (.fcEncode seq ty payload) s = .next (answered (.ok (.frame F)) s) ∧
        exec (.fcCksum seq ty payload) s = .next (answered (.ok (.checksum (byteAt F 3))) s) ∧
        byteAt F 3 = BitVec.ofNat 8 payload.length ^^^ byteAt F 2 ^^^ ty ^^^ xorBytes payload

/-- FC.DECODE (40_frame_codec.md R80): the four tests in their order, else the fields of bytes 1 and 2 by
30_encoding.md R47 (`v[hi:lo]`), the checksum byte and the payload; no register or flag written. -/
def Obligations.FcDecodeResult : Prop :=
  ∀ (s : State) (B : Bytes),
    let b1 := byteAt B 1
    let b2 := byteAt B 2
    let payload := slice B 4 B.length
    let len : BitVec 7 := match s.cfg.frameBitOrder with
      | .lsbFirst => b1.extractLsb 6 0
      | .msbFirst => b1.extractLsb 7 1
    let seq : BitVec 5 := match s.cfg.frameBitOrder with
      | .lsbFirst => b2.extractLsb 3 0 ++ b1.extractLsb 7 7
      | .msbFirst => b2.extractLsb 7 4 ++ b1.extractLsb 0 0
    let ty : BitVec 4 := match s.cfg.frameBitOrder with
      | .lsbFirst => b2.extractLsb 7 4
      | .msbFirst => b2.extractLsb 3 0
    exec (.fcDecode B) s = .next (answered
      (if B.length < 4 then .failed .truncated
        else if byteAt B 0 ≠ 0x7E#8 then .failed .badMarker
        else if B.length ≠ 4 + len.toNat then .failed .truncated
        else if len.setWidth 8 ^^^ b2 ^^^ ty.setWidth 8 ^^^ xorBytes payload ≠ byteAt B 3 then
          .failed .checksumMismatch
        else .ok (.fields seq ty len (byteAt B 3) payload)) s)

/-- Corner cases of FC.DECODE (40_frame_codec.md R81 (c), (d), (e), (h)): the frame of four bytes `7E 00 00 00`; no string over
131 bytes decodes; a good frame with anything after it is Truncated; the `ck` value is byte 3. -/
def Obligations.FcDecodeCorners : Prop :=
  (∀ s : State, exec (.fcDecode [0x7E#8, 0x00#8, 0x00#8, 0x00#8]) s
      = .next (answered (.ok (.fields 0#5 0#4 0#7 0x00#8 [])) s)) ∧
    (∀ (s : State) (B : Bytes), 131 < B.length → exec (.fcDecode B) s
      = .next (answered (.failed (if byteAt B 0 = 0x7E#8 then .truncated else .badMarker)) s)) ∧
    (∀ (s : State) (B T : Bytes) (v : Values),
      exec (.fcDecode B) s = .next (answered (.ok v) s) → T ≠ [] →
        exec (.fcDecode (B ++ T)) s = .next (answered (.failed .truncated) s)) ∧
    (∀ (s : State) (B : Bytes) (seq : BitVec 5) (ty : BitVec 4) (len : BitVec 7) (ck : Byte) (payload : Bytes),
      exec (.fcDecode B) s = .next (answered (.ok (.fields seq ty len ck payload)) s) → ck = byteAt B 3)

/-- Round trip (40_frame_codec.md R83): what FC.ENCODE makes, FC.DECODE takes apart, in any state of a unit with the same
FRAME_BIT_ORDER; and a string that decodes is exactly what encoding its fields gives. -/
def Obligations.FrameRoundTrip : Prop :=
  (∀ (s t : State) (seq ty : BitVec 8) (payload : Bytes), s.cfg.frameBitOrder = t.cfg.frameBitOrder →
      seq.toNat ≤ 31 → ty.toNat ≤ 15 → payload.length ≤ 127 →
      ∃ F : Bytes, exec (.fcEncode seq ty payload) s = .next (answered (.ok (.frame F)) s) ∧
        exec (.fcDecode F) t = .next (answered (.ok (.fields (seq.setWidth 5) (ty.setWidth 4)
          (BitVec.ofNat 7 payload.length) (byteAt F 3) payload)) t)) ∧
    (∀ (s t : State) (B : Bytes) (seq : BitVec 5) (ty : BitVec 4) (len : BitVec 7) (ck : Byte) (payload : Bytes),
      s.cfg.frameBitOrder = t.cfg.frameBitOrder →
      exec (.fcDecode B) s = .next (answered (.ok (.fields seq ty len ck payload)) s) →
        exec (.fcEncode (seq.setWidth 8) (ty.setWidth 8) payload) t = .next (answered (.ok (.frame B)) t))

/-- FC.ENCODE is a function of its operands, whatever the state, and injective on its legal operands
(40_frame_codec.md R76). -/
def Obligations.FcEncodeIsInjective : Prop :=
  (∀ (s t : State) (seq ty : BitVec 8) (payload : Bytes), s.cfg.frameBitOrder = t.cfg.frameBitOrder →
      ∃ r, exec (.fcEncode seq ty payload) s = .next (answered r s) ∧
        exec (.fcEncode seq ty payload) t = .next (answered r t)) ∧
    (∀ (s : State) (seq ty seq' ty' : BitVec 8) (payload payload' F : Bytes),
      exec (.fcEncode seq ty payload) s = .next (answered (.ok (.frame F)) s) →
      exec (.fcEncode seq' ty' payload') s = .next (answered (.ok (.frame F)) s) →
        seq = seq' ∧ ty = ty' ∧ payload = payload')

/-- What the checksum detects and what it does not (40_frame_codec.md R71): (a) one changed payload byte changes it; (b) a
reordering of the payload does not; (c) the same bits flipped in any two of the folded terms do not; (d) sequence bit 0 is
not covered; (e) its value, by nibbles with LSB_FIRST, and without the type with MSB_FIRST. -/
def Obligations.ChecksumDetectsAndMisses : Prop :=
  (∀ (o : FrameBitOrder) (seq : BitVec 5) (ty : BitVec 4) (A C : Bytes) (x y : Byte), x ≠ y →
      frameChecksum o seq ty (A ++ x :: C) ≠ frameChecksum o seq ty (A ++ y :: C)) ∧
    (∀ (o : FrameBitOrder) (seq : BitVec 5) (ty : BitVec 4) (p q : Bytes), p.Perm q →
      frameChecksum o seq ty p = frameChecksum o seq ty q) ∧
    (∀ (len e7 : BitVec 7) (b2 d x y : Byte) (ty e4 : BitVec 4) (A C D : Bytes),
      checksum len b2 ty (A ++ (x ^^^ d) :: C ++ (y ^^^ d) :: D) = checksum len b2 ty (A ++ x :: C ++ y :: D) ∧
      checksum len (b2 ^^^ d) ty (A ++ (x ^^^ d) :: C) = checksum len b2 ty (A ++ x :: C) ∧
      checksum (len ^^^ e7) b2 ty (A ++ (x ^^^ e7.setWidth 8) :: C) = checksum len b2 ty (A ++ x :: C) ∧
      checksum len b2 (ty ^^^ e4) (A ++ (x ^^^ e4.setWidth 8) :: C) = checksum len b2 ty (A ++ x :: C) ∧
      checksum (len ^^^ e7) (b2 ^^^ e7.setWidth 8) ty A = checksum len b2 ty A ∧
      checksum (len ^^^ e4.setWidth 7) b2 (ty ^^^ e4) A = checksum len b2 ty A ∧
      checksum len (b2 ^^^ e4.setWidth 8) (ty ^^^ e4) A = checksum len b2 ty A) ∧
    (∀ (s : State) (b1 b2 ck : Byte) (payload : Bytes) (seq : BitVec 5) (ty : BitVec 4) (len : BitVec 7),
      exec (.fcDecode ([0x7E#8, b1, b2, ck] ++ payload)) s
          = .next (answered (.ok (.fields seq ty len ck payload)) s) →
        exec (.fcDecode ([0x7E#8, b1 ^^^ (match s.cfg.frameBitOrder with | .lsbFirst => 0x80#8 | .msbFirst => 0x01#8),
            b2, ck] ++ payload)) s
          = .next (answered (.ok (.fields (seq ^^^ 1#5) ty len ck payload)) s)) ∧
    (∀ (seq : BitVec 5) (ty : BitVec 4) (p : Bytes),
      (frameChecksum .lsbFirst seq ty p).extractLsb 7 4
          = ((payloadLength p).extractLsb 6 4).setWidth 4 ^^^ ty ^^^ (xorBytes p).extractLsb 7 4 ∧
        (frameChecksum .lsbFirst seq ty p).extractLsb 3 0
          = (payloadLength p).extractLsb 3 0 ^^^ seq.extractLsb 4 1 ^^^ ty ^^^ (xorBytes p).extractLsb 3 0 ∧
        frameChecksum .msbFirst seq ty p
          = (payloadLength p).setWidth 8 ^^^ ((seq.extractLsb 4 1).setWidth 8 <<< 4) ^^^ xorBytes p)

/-- Damage at the decoder (40_frame_codec.md R81 (g), R71 (a); 70_reset_and_hazards.md R190): a frame that decodes, with one
payload byte changed, is a ChecksumMismatch; with its payload reordered it decodes, to the reordered payload. -/
def Obligations.DamagedFramesAtTheDecoder : Prop :=
  ∀ (s : State) (h : Bytes) (seq : BitVec 5) (ty : BitVec 4) (len : BitVec 7) (ck : Byte) (payload : Bytes),
    h.length = 4 → exec (.fcDecode (h ++ payload)) s = .next (answered (.ok (.fields seq ty len ck payload)) s) →
      (∀ (A C : Bytes) (x y : Byte), payload = A ++ x :: C → x ≠ y →
        exec (.fcDecode (h ++ (A ++ y :: C))) s = .next (answered (.failed .checksumMismatch) s)) ∧
      (∀ q : Bytes, payload.Perm q →
        exec (.fcDecode (h ++ q)) s = .next (answered (.ok (.fields seq ty len ck q)) s))

/-- LengthMismatch (40_frame_codec.md R82): no operation of the unit returns it; the code keeps its number. -/
def Obligations.LengthMismatchNeverReturned : Prop :=
  (∀ (i : Instr) (s t : State), exec i s = .next t → t.response ≠ some (.failed .lengthMismatch)) ∧
    responseCode (.failed .lengthMismatch) = 4#4

/-! ### The frame rows -/

/-- Each of the sixteen frame rows (43_message_types.md R135 to R151; log 6 has the unit take a frame as FC.DECODE does): the
unit answers the frame's fields, its type's number among them, when the checksum byte is the checksum, and
ChecksumMismatch otherwise; more than 127 payload bytes are no frame and are Truncated. No register is written, and no
type is treated differently. -/
def Obligations.FrameRowsAreDecoded : Prop :=
  ∀ row ∈ [(Instr.ack, 0#4), (Instr.nack, 1#4), (Instr.okAck, 2#4), (Instr.start, 3#4), (Instr.size, 4#4),
      (Instr.data, 5#4), (Instr.textNameAck, 6#4), (Instr.videoNameAck, 7#4), (Instr.imageNameAck, 8#4),
      (Instr.endOfFile, 9#4), (Instr.moveRight, 10#4), (Instr.moveUp, 11#4), (Instr.moveDown, 12#4),
      (Instr.moveLeft, 13#4), (Instr.mapUpdate, 14#4), (Instr.error, 15#4)],
    ∀ (s : State) (seq : BitVec 5) (ck : Byte) (payload : Bytes),
      exec (row.1 seq ck payload) s = .next (answered
        (if 127 < payload.length then .failed .truncated
          else if frameChecksum s.cfg.frameBitOrder seq row.2 payload = ck then
            .ok (.fields seq row.2 (BitVec.ofNat 7 payload.length) ck payload)
          else .failed .checksumMismatch) s)

/-- An ERROR frame carries any error code, whatever byte the host's software gives it (43_message_types.md R151, R152; the
bytes are parameters, log 12): FC.ENCODE of type 15 with that one byte, and FC.DECODE of the frame, give the byte back; and,
the three bytes being distinct, two error codes never make the same frame. -/
def Obligations.ErrorCodeTravelsAsPayload : Prop :=
  (∀ (s : State) (seq : BitVec 8) (e : ErrorCode), seq.toNat ≤ 31 →
      ∃ F : Bytes, exec (.fcEncode seq 15#8 (errorPayload s.cfg e)) s = .next (answered (.ok (.frame F)) s) ∧
        F.length = 5 ∧
        exec (.fcDecode F) s
          = .next (answered (.ok (.fields (seq.setWidth 5) 15#4 1#7 (byteAt F 3) [errorCodeByte s.cfg e])) s)) ∧
    (∀ (s : State) (seq seq' : BitVec 8) (e e' : ErrorCode) (F : Bytes), errorCodesDistinct s.cfg = true →
      exec (.fcEncode seq 15#8 (errorPayload s.cfg e)) s = .next (answered (.ok (.frame F)) s) →
      exec (.fcEncode seq' 15#8 (errorPayload s.cfg e')) s = .next (answered (.ok (.frame F)) s) → e = e')

/-! ### The header builder -/

/-- The IPv4 header checksum (41_link_headers.md R90): the complement of the sum of the ten big-endian words after as many
rounds of end-around carry, at most two, as it takes to bring it to 16 bits. -/
def Obligations.IpckIsTheInternetChecksum : Prop :=
  ∀ H : Bytes, H.length = 20 →
    let sum := memRead H 0 2 + memRead H 2 2 + memRead H 4 2 + memRead H 6 2 + memRead H 8 2 + memRead H 10 2
      + memRead H 12 2 + memRead H 14 2 + memRead H 16 2 + memRead H 18 2
    let carry : Nat → Nat := fun x => x % 65536 + x / 65536
    ∃ k ≤ 2, carry^[k] sum ≤ 0xFFFF ∧ (∀ j < k, 0xFFFF < carry^[j] sum) ∧
      ipck H = ~~~ (BitVec.ofNat 16 (carry^[k] sum))

/-- Consequences (41_link_headers.md R92): (a) the ten words of a built header, checksum included, fold to 0xFFFF; (b) its
checksum is never 0xFFFF; (c) it can be 0x0000 and is then written so, as in the rule's example. -/
def Obligations.BuiltHeaderSumsToAllOnes : Prop :=
  (∀ (c : Config) (n : Nat) (src dst : Ip), n ≤ 131 →
      foldedSum (ipHeader c n src dst) = 0xFFFF ∧ foldedSum (ipHeaderZero c n src dst) ≠ 0 ∧
        ipck (ipHeaderZero c n src dst) ≠ 0xFFFF#16) ∧
    wordSum (ipHeaderZero standardConfig 4 0x0A0066CD#32 0x0A000001#32) = 0xFFFF ∧
    ipck (ipHeaderZero standardConfig 4 0x0A0066CD#32 0x0A000001#32) = 0x0000#16 ∧
    slice (ipHeader standardConfig 4 0x0A0066CD#32 0x0A000001#32) 10 12 = [0x00#8, 0x00#8]

/-- LT.BUILD (41_link_headers.md R95, R96): NotConfigured unless both valid bits are set, then InvalidArgument over 131
bytes, else the three headers and the frame; no register or flag written. -/
def Obligations.LtBuildResult : Prop :=
  ∀ (s : State) (F : Bytes),
    let c := s.cfg
    let n := F.length
    let dmac := if peerMacValid s.status then s.peerMac else c.macBroadcast
    let eth := mac6 dmac ++ mac6 s.localMac ++ be16 c.ethertypeIpv4
    let ip0 := [0x45#8, c.ipTos] ++ be16 (BitVec.ofNat 16 (28 + n)) ++ be16 c.ipId ++ be16 c.ipFrag
      ++ [c.ipTtl, 17#8] ++ [0x00#8, 0x00#8] ++ be32 s.localIp ++ be32 s.peerIp
    let udp := be16 s.localPort ++ be16 s.peerPort ++ be16 (BitVec.ofNat 16 (8 + n)) ++ be16 c.udpCkTx
    exec (.ltBuild F) s = .next (answered
      (if localValid s.status = false ∨ peerValid s.status = false then .failed .notConfigured
        else if 131 < n then .failed .invalidArgument
        else .ok (.packet (eth ++ memWrite ip0 10 (be16 (ipck ip0)) ++ udp ++ F))) s)

/-- Where the fields of a built packet stand and what they hold (20_memory.md R37; 30_encoding.md R50 to R53;
41_link_headers.md R90, R95, R97, R98): its length is 42 + n, every field reads back at its offset, the Ethernet destination
and the header checksum among them, and the frame is its tail. -/
def Obligations.BuiltPacketFields : Prop :=
  ∀ (s : State) (F : Bytes), localValid s.status = true → peerValid s.status = true → F.length ≤ 131 →
    ∃ P : Bytes, exec (.ltBuild F) s = .next (answered (.ok (.packet P)) s) ∧
      P.length = 42 + F.length ∧
      memRead P 0 6 = (if peerMacValid s.status then s.peerMac else s.cfg.macBroadcast).toNat ∧
      memRead P 6 6 = s.localMac.toNat ∧ memRead P 12 2 = s.cfg.ethertypeIpv4.toNat ∧
      byteAt P 14 = 0x45#8 ∧ byteAt P 15 = s.cfg.ipTos ∧ memRead P 16 2 = 28 + F.length ∧
      memRead P 18 2 = s.cfg.ipId.toNat ∧ memRead P 20 2 = s.cfg.ipFrag.toNat ∧ byteAt P 22 = s.cfg.ipTtl ∧
      byteAt P 23 = 17#8 ∧
      memRead P 24 2 = (ipck (ipHeaderZero s.cfg F.length s.localIp s.peerIp)).toNat ∧
      memRead P 26 4 = s.localIp.toNat ∧ memRead P 30 4 = s.peerIp.toNat ∧
      memRead P 34 2 = s.localPort.toNat ∧ memRead P 36 2 = s.peerPort.toNat ∧ memRead P 38 2 = 8 + F.length ∧
      memRead P 40 2 = s.cfg.udpCkTx.toNat ∧ slice P 42 P.length = F

/-- The broadcast fall-back (41_link_headers.md R97): the Ethernet destination is PEER_MAC when STATUS.PEER_MAC_VALID = 1 and
the broadcast address otherwise; the IPv4 destination is PEER_IP in both cases. -/
def Obligations.BroadcastWhenPeerMacUnknown : Prop :=
  ∀ (s : State) (F P : Bytes), exec (.ltBuild F) s = .next (answered (.ok (.packet P)) s) →
    (peerMacValid s.status = true → slice P 0 6 = mac6 s.peerMac) ∧
      (peerMacValid s.status = false → slice P 0 6 = mac6 s.cfg.macBroadcast) ∧
      slice P 30 34 = be32 s.peerIp ∧ standardConfig.macBroadcast = BitVec.allOnes 48

/-! ### The header parser -/

/-- LT.PARSE (41_link_headers.md R105, R100, R106): NotConfigured without LOCAL_VALID, Discard unless all seven tests hold,
else the frame and the source addresses, with the peer registers and valid bits written and nothing else. -/
def Obligations.LtParseResult : Prop :=
  ∀ (s : State) (P : Bytes),
    let ulen := memRead P 38 2
    let smac : Mac := BitVec.ofNat 48 (memRead P 6 6)
    let sip : Ip := BitVec.ofNat 32 (memRead P 26 4)
    let sport : Port := BitVec.ofNat 16 (memRead P 34 2)
    let accepted := 42 ≤ P.length ∧ memRead P 12 2 = s.cfg.ethertypeIpv4.toNat ∧ byteAt P 23 = 17#8 ∧
      memRead P 30 4 = s.localIp.toNat ∧ memRead P 36 2 = s.localPort.toNat ∧ 8 ≤ ulen ∧ 34 + ulen ≤ P.length
    (localValid s.status = false → exec (.ltParse P) s = .next (answered (.failed .notConfigured) s)) ∧
      (localValid s.status = true → ¬ accepted → exec (.ltParse P) s = .next (answered (.failed .discard) s)) ∧
      (localValid s.status = true → accepted → exec (.ltParse P) s = .next (answered
        (.ok (.parsed (slice P 42 (34 + ulen)) smac sip sport))
        { s with
          peerIp := sip
          peerPort := sport
          peerMac := if s.cfg.learnPeerMac then smac else s.peerMac
          status := s.status ||| (if s.cfg.learnPeerMac then 0b110#3 else 0b010#3) }))

/-- What the filter does not test (41_link_headers.md R102; 93_implementation_defined.md U10): whether a packet is discarded
depends on its length and on bytes 12, 13, 23, 30 to 33 and 36 to 39 alone. -/
def Obligations.UntestedHeaderBytesNeverDiscard : Prop :=
  ∀ (s : State) (P Q : Bytes), P.length = Q.length →
    (∀ k ∈ [12, 13, 23, 30, 31, 32, 33, 36, 37, 38, 39], byteAt P k = byteAt Q k) →
      (exec (.ltParse P) s = .next (answered (.failed .discard) s) ↔
        exec (.ltParse Q) s = .next (answered (.failed .discard) s))

/-- Trailing bytes (41_link_headers.md R101): what follows an accepted packet's UDP length changes nothing. -/
def Obligations.TrailingBytesAreIgnored : Prop :=
  ∀ (s t : State) (P T F : Bytes) (mac : Mac) (ip : Ip) (port : Port),
    exec (.ltParse P) s = .next (answered (.ok (.parsed F mac ip port)) t) →
      exec (.ltParse (P ++ T)) s = .next (answered (.ok (.parsed F mac ip port)) t)

/-- Every accepted packet replaces the peer (70_reset_and_hazards.md R187): after any LT.PARSE that returns Ok, the next
LT.BUILD addresses the sender of that packet. -/
def Obligations.NextBuildAddressesTheSender : Prop :=
  ∀ (s t : State) (P F G : Bytes) (mac : Mac) (ip : Ip) (port : Port),
    exec (.ltParse P) s = .next t → t.response = some (.ok (.parsed F mac ip port)) → G.length ≤ 131 →
      ∃ Q : Bytes, exec (.ltBuild G) t = .next (answered (.ok (.packet Q)) t) ∧
        memRead Q 30 4 = ip.toNat ∧ memRead Q 36 2 = port.toNat ∧
        (s.cfg.learnPeerMac = true → memRead Q 0 6 = mac.toNat)

/-- The build-then-parse law (41_link_headers.md R109), with the two units agreeing on ETHERTYPE_IPV4: what A builds, B
parses, whatever bytes follow it, and B's next LT.BUILD addresses A. (The rule bounds the whole by RX_MAX; the law needs no
bound.) -/
def Obligations.BuildThenParse : Prop :=
  ∀ (a b : State) (F P T : Bytes), exec (.ltBuild F) a = .next (answered (.ok (.packet P)) a) →
    localValid b.status = true → b.localIp = a.peerIp → b.localPort = a.peerPort →
    b.cfg.ethertypeIpv4 = a.cfg.ethertypeIpv4 →
      ∃ b' : State, exec (.ltParse (P ++ T)) b = .next b' ∧
        b'.response = some (.ok (.parsed F a.localMac a.localIp a.localPort)) ∧
        ∀ G : Bytes, G.length ≤ 131 →
          ∃ Q : Bytes, exec (.ltBuild G) b' = .next (answered (.ok (.packet Q)) b') ∧
            memRead Q 30 4 = a.localIp.toNat ∧ memRead Q 36 2 = a.localPort.toNat ∧
            (b.cfg.learnPeerMac = true → memRead Q 0 6 = a.localMac.toNat)

/-! ### Setup, read-back, reset -/

/-- LT.SETUP (42_config_ops.md R120). -/
def Obligations.LtSetupResult : Prop :=
  ∀ (s : State) (mac : Mac) (ip : Ip) (port : Port),
    exec (.ltSetup mac ip port) s = .next (answered (.ok .none)
      { s with localMac := mac, localIp := ip, localPort := port, status := s.status ||| 0b001#3 })

/-- LT.SETDEST (42_config_ops.md R121). -/
def Obligations.LtSetdestResult : Prop :=
  ∀ (s : State) (ip : Ip) (port : Port),
    exec (.ltSetdest ip port) s = .next (answered (.ok .none)
      { s with peerIp := ip, peerPort := port, status := (s.status ||| 0b010#3) &&& 0b011#3 })

/-- LT.SETPEERMAC (42_config_ops.md R122): with `valid` = 0 the address is ignored. -/
def Obligations.LtSetpeermacResult : Prop :=
  ∀ (s : State) (mac : Mac),
    exec (.ltSetpeermac true mac) s = .next (answered (.ok .none)
      { s with peerMac := mac, status := s.status ||| 0b100#3 }) ∧
    exec (.ltSetpeermac false mac) s = .next (answered (.ok .none) { s with status := s.status &&& 0b011#3 })

/-- LT.RD (42_config_ops.md R124): each register number, its valid bit, its value zero-extended; no register or flag
written. -/
def Obligations.LtRdResult : Prop :=
  ∀ (s : State) (r : BitVec 3),
    exec (.ltRd r) s = .next (answered
      (if r = 7#3 then .failed .invalidArgument
        else if r.toNat ≤ 2 ∧ localValid s.status = false then .failed .notConfigured
        else if (r = 4#3 ∨ r = 5#3) ∧ peerValid s.status = false then .failed .notConfigured
        else if r = 3#3 ∧ peerMacValid s.status = false then .failed .notConfigured
        else if r = 0#3 then .ok (.register s.localMac)
        else if r = 1#3 then .ok (.register (s.localIp.setWidth 48))
        else if r = 2#3 then .ok (.register (s.localPort.setWidth 48))
        else if r = 3#3 then .ok (.register s.peerMac)
        else if r = 4#3 then .ok (.register (s.peerIp.setWidth 48))
        else if r = 5#3 then .ok (.register (s.peerPort.setWidth 48))
        else .ok (.register (s.status.setWidth 48))) s)

/-- The setup operations check no value (42_config_ops.md R123): what they store, LT.RD reads back, whatever it is. -/
def Obligations.StoredValuesReadBack : Prop :=
  ∀ (s t : State) (mac : Mac) (ip : Ip) (port : Port),
    (exec (.ltSetup mac ip port) s = .next t →
        exec (.ltRd 0#3) t = .next (answered (.ok (.register mac)) t) ∧
        exec (.ltRd 1#3) t = .next (answered (.ok (.register (ip.setWidth 48))) t) ∧
        exec (.ltRd 2#3) t = .next (answered (.ok (.register (port.setWidth 48))) t)) ∧
      (exec (.ltSetdest ip port) s = .next t →
        exec (.ltRd 4#3) t = .next (answered (.ok (.register (ip.setWidth 48))) t) ∧
        exec (.ltRd 5#3) t = .next (answered (.ok (.register (port.setWidth 48))) t)) ∧
      (exec (.ltSetpeermac true mac) s = .next t →
        exec (.ltRd 3#3) t = .next (answered (.ok (.register mac)) t))

/-- LT.SETDEST forgets the peer's link address (70_reset_and_hazards.md R188, 42_config_ops.md R121): whatever was known
before, LT.RD 3 answers NotConfigured and the next packet goes to the broadcast address. -/
def Obligations.SetdestForgetsTheLinkAddress : Prop :=
  ∀ (s t : State) (ip : Ip) (port : Port) (F : Bytes), exec (.ltSetdest ip port) s = .next t →
    exec (.ltRd 3#3) t = .next (answered (.failed .notConfigured) t) ∧
      (localValid s.status = true → F.length ≤ 131 →
        ∃ P : Bytes, exec (.ltBuild F) t = .next (answered (.ok (.packet P)) t) ∧
          slice P 0 6 = mac6 s.cfg.macBroadcast ∧ slice P 30 34 = be32 ip)

/-- LT.RESET (42_config_ops.md R126): STATUS is cleared and nothing else; the state after it is one no operation can tell
from the state after a hardware reset (neither's response counted); after it LT.RD 6 reads zero and LT.BUILD is not
configured; where STATUS is clear already, no register changes. -/
def Obligations.LtResetTearsDown : Prop :=
  ∀ s : State,
    exec .ltReset s = .next (answered (.ok .none) { s with status := 0b000#3 }) ∧
      (∀ t, exec .ltReset s = .next t →
        SameView { t with response := none } (hardwareReset s) ∧
        exec (.ltRd 6#3) t = .next (answered (.ok (.register 0#48)) t) ∧
        ∀ F, exec (.ltBuild F) t = .next (answered (.failed .notConfigured) t)) ∧
      (s.status = 0b000#3 → exec .ltReset s = .next (answered (.ok .none) s))

/-- The reserved operation codes (30_encoding.md R59): IllegalOp, no state changed, whatever the operands. -/
def Obligations.ReservedCodesAreIllegal : Prop :=
  ∀ (s : State) (operands : Bytes),
    ∀ op ∈ [Instr.reserved0, Instr.reserved6, Instr.reserved7, Instr.reservedC, Instr.reservedD, Instr.reservedE],
      exec (op operands) s = .next (answered (.failed .illegalOp) s)

/-- What reset leaves (10_state.md R24): STATUS = 0b000, of the reset state and after LT.RESET, which leaves the bits of the
value registers as they were; while STATUS is 0b000 none of them can be read, built from or compared with. -/
def Obligations.ResetLeavesRegistersUnobservable : Prop :=
  State.reset.status = 0b000#3 ∧
    (∀ s : State, ∃ t, exec .ltReset s = .next t ∧ t.status = 0b000#3 ∧ t.localMac = s.localMac ∧
      t.localIp = s.localIp ∧ t.localPort = s.localPort ∧ t.peerMac = s.peerMac ∧ t.peerIp = s.peerIp ∧
      t.peerPort = s.peerPort) ∧
    (∀ s : State, (hardwareReset s).status = 0b000#3) ∧
    (∀ s : State, s.status = 0b000#3 →
      (∀ r : BitVec 3, r.toNat ≤ 5 → exec (.ltRd r) s = .next (answered (.failed .notConfigured) s)) ∧
      (∀ F, exec (.ltBuild F) s = .next (answered (.failed .notConfigured) s)) ∧
      (∀ P, exec (.ltParse P) s = .next (answered (.failed .notConfigured) s)))

/-- The unit comes up in the order of 70_reset_and_hazards.md R182: with STATUS clear, LT.SETUP makes LT.PARSE work but not
LT.BUILD; LT.SETDEST then makes LT.BUILD work. -/
def Obligations.UnitComesUpInOrder : Prop :=
  ∀ (s t u : State) (mac : Mac) (ip ip' : Ip) (port port' : Port) (F P : Bytes), s.status = 0b000#3 →
    exec (.ltSetup mac ip port) s = .next t → exec (.ltSetdest ip' port') t = .next u → F.length ≤ 131 →
      exec (.ltBuild F) t = .next (answered (.failed .notConfigured) t) ∧
      (∃ t', exec (.ltParse P) t = .next t' ∧ t'.response ≠ some (.failed .notConfigured)) ∧
      (∃ Q, exec (.ltBuild F) u = .next (answered (.ok (.packet Q)) u))

/-! ### The pseudo-operations -/

/-- LT.SEND (42_config_ops.md R128): InvalidArgument from FC.ENCODE whether or not the unit is configured, else
NotConfigured, else the packet of 46 to 173 bytes that LT.BUILD makes of FC.ENCODE's frame; no register written. -/
def Obligations.LtSendComposes : Prop :=
  ∀ (s : State) (seq ty : BitVec 8) (payload : Bytes),
    if 31 < seq.toNat ∨ 15 < ty.toNat ∨ 127 < payload.length then
      ltSend seq ty payload s = .next (answered (.failed .invalidArgument) s)
    else if localValid s.status = false ∨ peerValid s.status = false then
      ltSend seq ty payload s = .next (answered (.failed .notConfigured) s)
    else
      ∃ F P : Bytes, exec (.fcEncode seq ty payload) s = .next (answered (.ok (.frame F)) s) ∧
        exec (.ltBuild F) s = .next (answered (.ok (.packet P)) s) ∧
        ltSend seq ty payload s = .next (answered (.ok (.packet P)) s) ∧ 46 ≤ P.length ∧ P.length ≤ 173

/-- LT.RECV (42_config_ops.md R129): LT.PARSE's result when that is not Ok, else FC.DECODE's of the frame, with the source
addresses kept beside it when it is Ok; the registers are as LT.PARSE left them, whatever FC.DECODE answers. -/
def Obligations.LtRecvComposes : Prop :=
  ∀ (s t : State) (P : Bytes), exec (.ltParse P) s = .next t →
    (∀ f, t.response = some (.failed f) → ltRecv P s = (.next t, none)) ∧
      (∀ (F : Bytes) (mac : Mac) (ip : Ip) (port : Port), t.response = some (.ok (.parsed F mac ip port)) →
        ∃ r, exec (.fcDecode F) t = .next (answered r t) ∧
          ltRecv P s = (.next (answered r t), match r with | .ok _ => some ⟨mac, ip, port⟩ | .failed _ => none) ∧
          t.peerIp = ip ∧ t.peerPort = port) ∧
      (∃ r, t.response = some r ∧ ((∃ f, r = .failed f) ∨ ∃ F mac ip port, r = .ok (.parsed F mac ip port)))

/-! ### The whole machine -/

/-- Every instruction is total (00_scope.md R6): for every state and operands it returns exactly one response. For the ten
operations and the reserved codes it is one of those the response format lists for it (30_encoding.md R60). R6 and R60 speak
of these alone: that the sixteen frame rows are answered, and with the responses of FC.DECODE, is the model's choice
(log 6). -/
def Obligations.EveryInstructionAnswers : Prop :=
  ∀ (i : Instr) (s : State), ∃ t r, exec i s = .next t ∧ t.response = some r ∧ listedResponse i r = true

/-- An operation that returns any code other than Ok writes no register and no flag, and FC.ENCODE, FC.DECODE, FC.CKSUM,
LT.BUILD and LT.RD write none even when they return Ok (60_exceptions.md R168). -/
def Obligations.OnlyOkWritesRegisters : Prop :=
  (∀ (i : Instr) (s t : State) (f : Failure), exec i s = .next t → t.response = some (.failed f) →
      t = answered (.failed f) s) ∧
    (∀ (s : State) (seq ty : BitVec 8) (B : Bytes) (r : BitVec 3),
      ∀ i ∈ [Instr.fcEncode seq ty B, .fcDecode B, .fcCksum seq ty B, .ltBuild B, .ltRd r],
        ∃ q, exec i s = .next (answered q s))

/-- Which operation writes which register (10_state.md R10, R17; the table's column 'written by'), and that none changes the
parameters, the host's plans or the count of free contents. -/
def Obligations.RegistersHaveTheirWriters : Prop :=
  ∀ (i : Instr) (s t : State), exec i s = .next t →
    (t.localMac ≠ s.localMac ∨ t.localIp ≠ s.localIp ∨ t.localPort ≠ s.localPort →
        ∃ mac ip port, i = .ltSetup mac ip port) ∧
      (t.peerMac ≠ s.peerMac → (∃ mac, i = .ltSetpeermac true mac) ∨ (s.cfg.learnPeerMac = true ∧ ∃ P, i = .ltParse P)) ∧
      (t.peerIp ≠ s.peerIp ∨ t.peerPort ≠ s.peerPort → (∃ ip port, i = .ltSetdest ip port) ∨ ∃ P, i = .ltParse P) ∧
      (localValid t.status ≠ localValid s.status → (∃ mac ip port, i = .ltSetup mac ip port) ∨ i = .ltReset) ∧
      (peerValid t.status ≠ peerValid s.status →
        (∃ ip port, i = .ltSetdest ip port) ∨ (∃ P, i = .ltParse P) ∨ i = .ltReset) ∧
      (peerMacValid t.status ≠ peerMacValid s.status →
        (∃ valid mac, i = .ltSetpeermac valid mac) ∨ (∃ ip port, i = .ltSetdest ip port) ∨
          (s.cfg.learnPeerMac = true ∧ ∃ P, i = .ltParse P) ∨ i = .ltReset) ∧
      t.cfg = s.cfg ∧ t.host = s.host ∧ t.freeCount = s.freeCount

/-- No step changes the parameters: they are configuration, not state (10_state.md R22). -/
def Obligations.StepsKeepTheParameters : Prop :=
  ∀ s t : State, step s = .next t → t.cfg = s.cfg

/-- The reset state meets the invariant: its error codes are distinct (43_message_types.md R152), whatever bytes they are
(log 12), and no response is at the port. -/
def Obligations.ResetIsWellFormed : Prop := wellFormedState State.reset = true

/-- Every step keeps the response at the port within the response format (30_encoding.md R60): a frame of 4 to 131 bytes, a
payload of as many bytes as its length says, a packet of 42 to 173 bytes, a received frame of at most RX_MAX - 42 bytes, and
never the code LengthMismatch; and the error codes stay distinct (43_message_types.md R152). -/
def Obligations.StepsKeepResponsesWellFormed : Prop :=
  ∀ s t : State, wellFormedState s = true → step s = .next t → wellFormedState t = true

/-- A value register whose valid bit is 0 holds no value (10_state.md R18): two states that agree on everything else take
steps that agree on everything else, and answer the same. So what the model lets those registers hold at reset (log 2,
log 3) is never observed. -/
def Obligations.InvalidRegistersAreNeverObserved : Prop :=
  ∀ s t : State, SameView s t → sameOutcome (step s) (step t)

/-- No hidden state (10_state.md R23): two equal commands issued in equal register states return equal responses and leave
equal states, whatever was answered before and whatever the host plans. -/
def Obligations.EqualCommandsEqualResponses : Prop :=
  ∀ (i : Instr) (s t s' : State), SameRegisters s t → exec i s = .next s' →
    ∃ t', exec i t = .next t' ∧ t'.response = s'.response ∧ SameRegisters s' t'
end

