-- ==== Sys2Proof/Laws/Bytes.lean ====
section
/-! SUPPORT. Byte strings: lengths, substrings of concatenations, and reading back a big-endian field. -/

namespace Sys2Proof.Machine

@[simp] theorem be16_length (v : BitVec 16) : (be16 v).length = 2 := rfl
@[simp] theorem be32_length (v : BitVec 32) : (be32 v).length = 4 := rfl
@[simp] theorem mac6_length (v : Mac) : (mac6 v).length = 6 := rfl

theorem slice_length {B : Bytes} {i j : Nat} (h : j ≤ B.length) : (slice B i j).length = j - i := by
  simp [slice]; omega

/-- A substring that ends before the second part does not see it. -/
theorem slice_append_left {A B : Bytes} {i j : Nat} (h : j ≤ A.length) : slice (A ++ B) i j = slice A i j := by
  unfold slice
  by_cases hi : i ≤ A.length
  · rw [List.drop_append_of_le_length hi, List.take_append_of_le_length (by simp; omega)]
  · have : j - i = 0 := by omega
    simp [this]

/-- A substring that starts in the second part is one of the second part. -/
theorem slice_append_right {A B : Bytes} {i j : Nat} (h : A.length ≤ i) :
    slice (A ++ B) i j = slice B (i - A.length) (j - A.length) := by
  unfold slice
  rw [List.drop_append, List.drop_of_length_le h, List.nil_append]
  congr 1; omega

/-- The whole string is its own substring. -/
theorem slice_all (B : Bytes) : slice B 0 B.length = B := by simp [slice]

theorem memRead_append_left {A B : Bytes} {off n : Nat} (h : off + n ≤ A.length) :
    memRead (A ++ B) off n = memRead A off n := by
  unfold memRead; rw [slice_append_left h]

theorem memRead_append_right {A B : Bytes} {off n : Nat} (h : A.length ≤ off) :
    memRead (A ++ B) off n = memRead B (off - A.length) n := by
  unfold memRead; rw [slice_append_right h]; congr 2; omega

@[simp] theorem bigEndian_be16 (v : BitVec 16) : bigEndian (be16 v) = v.toNat := by
  have := v.isLt
  simp [bigEndian, be16, BitVec.extractLsb'_toNat, Nat.shiftRight_eq_div_pow]; omega

@[simp] theorem bigEndian_be32 (v : BitVec 32) : bigEndian (be32 v) = v.toNat := by
  have := v.isLt
  simp [bigEndian, be32, BitVec.extractLsb'_toNat, Nat.shiftRight_eq_div_pow]; omega

@[simp] theorem bigEndian_mac6 (v : Mac) : bigEndian (mac6 v) = v.toNat := by
  have := v.isLt
  simp [bigEndian, mac6, BitVec.extractLsb'_toNat, Nat.shiftRight_eq_div_pow]; omega

/-- A field that starts a string is read back, whatever follows. -/
theorem memRead_be16 (v : BitVec 16) (B : Bytes) : memRead (be16 v ++ B) 0 2 = v.toNat := by
  rw [memRead_append_left (by simp)]; exact bigEndian_be16 v

theorem memRead_be32 (v : BitVec 32) (B : Bytes) : memRead (be32 v ++ B) 0 4 = v.toNat := by
  rw [memRead_append_left (by simp)]; exact bigEndian_be32 v

theorem memRead_mac6 (v : Mac) (B : Bytes) : memRead (mac6 v ++ B) 0 6 = v.toNat := by
  rw [memRead_append_left (by simp)]; exact bigEndian_mac6 v

theorem bigEndian_append (A : Bytes) (b : Byte) : bigEndian (A ++ [b]) = bigEndian A * 256 + b.toNat := by
  simp [bigEndian]

/-- The fields of two bytes, of four and of six are one word each: the encoder and the reader agree. -/
theorem be16_bigEndian (a b : Byte) : be16 (BitVec.ofNat 16 (bigEndian [a, b])) = [a, b] := by
  have ha := a.isLt
  have hb := b.isLt
  simp only [be16, bigEndian, List.foldl, List.cons.injEq, and_true]
  refine ⟨BitVec.eq_of_toNat_eq ?_, BitVec.eq_of_toNat_eq ?_⟩ <;>
    simp [BitVec.extractLsb'_toNat, Nat.shiftRight_eq_div_pow] <;> omega

theorem be32_bigEndian (a b c d : Byte) : be32 (BitVec.ofNat 32 (bigEndian [a, b, c, d])) = [a, b, c, d] := by
  have ha := a.isLt
  have hb := b.isLt
  have hc := c.isLt
  have hd := d.isLt
  simp only [be32, bigEndian, List.foldl, List.cons.injEq, and_true]
  refine ⟨BitVec.eq_of_toNat_eq ?_, BitVec.eq_of_toNat_eq ?_, BitVec.eq_of_toNat_eq ?_, BitVec.eq_of_toNat_eq ?_⟩ <;>
    simp [BitVec.extractLsb'_toNat, Nat.shiftRight_eq_div_pow] <;> omega

theorem mac6_bigEndian (a b c d e f : Byte) :
    mac6 (BitVec.ofNat 48 (bigEndian [a, b, c, d, e, f])) = [a, b, c, d, e, f] := by
  have ha := a.isLt
  have hb := b.isLt
  have hc := c.isLt
  have hd := d.isLt
  have he := e.isLt
  have hf := f.isLt
  simp only [mac6, bigEndian, List.foldl, List.cons.injEq, and_true]
  refine ⟨BitVec.eq_of_toNat_eq ?_, BitVec.eq_of_toNat_eq ?_, BitVec.eq_of_toNat_eq ?_, BitVec.eq_of_toNat_eq ?_,
    BitVec.eq_of_toNat_eq ?_, BitVec.eq_of_toNat_eq ?_⟩ <;>
    simp [BitVec.extractLsb'_toNat, Nat.shiftRight_eq_div_pow] <;> omega

/-- A read of `n` bytes is below `256 ^ n`. -/
theorem bigEndian_lt (B : Bytes) : bigEndian B < 256 ^ B.length := by
  induction B using List.reverseRecOn with
  | nil => simp [bigEndian]
  | append_singleton A b ih =>
    rw [bigEndian_append, List.length_append, List.length_singleton, pow_succ]
    have := b.isLt
    omega

theorem memRead_lt (B : Bytes) (off n : Nat) : memRead B off n < 256 ^ n := by
  refine lt_of_lt_of_le (bigEndian_lt _) (Nat.pow_le_pow_right (by decide) ?_)
  simp [slice]

/-- Exclusive or of a concatenation, from any start. -/
theorem foldl_xor (c : Byte) (B : Bytes) : B.foldl (fun c b => c ^^^ b) c = c ^^^ xorBytes B := by
  unfold xorBytes
  induction B generalizing c with
  | nil => simp
  | cons b B ih => simp only [List.foldl_cons]; rw [ih, ih (0x00#8 ^^^ b)]; simp [BitVec.xor_assoc]

@[simp] theorem xorBytes_nil : xorBytes [] = 0x00#8 := rfl

@[simp] theorem xorBytes_cons (b : Byte) (B : Bytes) : xorBytes (b :: B) = b ^^^ xorBytes B := by
  simpa [xorBytes] using foldl_xor (0x00#8 ^^^ b) B

theorem xorBytes_append (A B : Bytes) : xorBytes (A ++ B) = xorBytes A ^^^ xorBytes B := by
  induction A with
  | nil => simp
  | cons a A ih => simp [ih, BitVec.xor_assoc]

end Sys2Proof.Machine
end

