-- ==== Sys2Proof/Laws/Formats.lean ====
section
/-! SUPPORT. The frame header: fields packed into bytes 1 and 2 are read back, and bytes packed again from their fields
are the bytes they were (30_encoding.md R46, R47, R49). -/

namespace Sys2Proof.Machine

@[simp] theorem lengthField_headerByte1 (o : FrameBitOrder) (seq : BitVec 5) (len : BitVec 7) :
    lengthField o (headerByte1 o seq len) = len := by
  cases o <;> refine BitVec.eq_of_getLsbD_eq fun i hi => ?_ <;>
    simp only [lengthField, headerByte1, BitVec.getLsbD_append, BitVec.getLsbD_extractLsb'] <;>
    interval_cases i <;> simp

@[simp] theorem typeField_headerByte2 (o : FrameBitOrder) (seq : BitVec 5) (ty : BitVec 4) :
    typeField o (headerByte2 o seq ty) = ty := by
  cases o <;> refine BitVec.eq_of_getLsbD_eq fun i hi => ?_ <;>
    simp only [typeField, headerByte2, BitVec.getLsbD_append, BitVec.getLsbD_extractLsb'] <;>
    interval_cases i <;> simp

@[simp] theorem sequenceField_headerBytes (o : FrameBitOrder) (seq : BitVec 5) (len : BitVec 7) (ty : BitVec 4) :
    sequenceField o (headerByte1 o seq len) (headerByte2 o seq ty) = seq := by
  cases o <;> refine BitVec.eq_of_getLsbD_eq fun i hi => ?_ <;>
    simp only [sequenceField, headerByte1, headerByte2, seqLow, seqHigh, BitVec.getLsbD_append,
      BitVec.getLsbD_extractLsb'] <;>
    interval_cases i <;> simp

@[simp] theorem headerByte1_fields (o : FrameBitOrder) (b1 b2 : Byte) :
    headerByte1 o (sequenceField o b1 b2) (lengthField o b1) = b1 := by
  cases o <;> refine BitVec.eq_of_getLsbD_eq fun i hi => ?_ <;>
    simp only [sequenceField, headerByte1, seqLow, lengthField, BitVec.getLsbD_append,
      BitVec.getLsbD_extractLsb'] <;>
    interval_cases i <;> simp

@[simp] theorem headerByte2_fields (o : FrameBitOrder) (b1 b2 : Byte) :
    headerByte2 o (sequenceField o b1 b2) (typeField o b2) = b2 := by
  cases o <;> refine BitVec.eq_of_getLsbD_eq fun i hi => ?_ <;>
    simp only [sequenceField, headerByte2, seqHigh, typeField, BitVec.getLsbD_append,
      BitVec.getLsbD_extractLsb'] <;>
    interval_cases i <;> simp

@[simp] theorem typeOfNumber_typeNumber (t : MessageType) : typeOfNumber (typeNumber t) = t := by
  cases t <;> rfl

@[simp] theorem typeNumber_typeOfNumber (n : BitVec 4) : typeNumber (typeOfNumber n) = n := by
  revert n; decide

/-- The checksum is the exclusive or of its four terms (40_frame_codec.md R70). -/
theorem checksum_eq (len : BitVec 7) (b2 : Byte) (ty : BitVec 4) (payload : Bytes) :
    checksum len b2 ty payload = len.setWidth 8 ^^^ b2 ^^^ ty.setWidth 8 ^^^ xorBytes payload := by
  unfold checksum; rw [foldl_xor]; simp

theorem payloadLength_toNat {payload : Bytes} (h : payload.length ≤ 127) :
    (payloadLength payload).toNat = payload.length := by
  simp [payloadLength]; omega

end Sys2Proof.Machine
end

