-- ==== Sys2Proof/Laws/Flags.lean ====
section
/-! SUPPORT. Each valid bit of STATUS after each write of one (10_state.md R17). -/

namespace Sys2Proof.Machine

@[simp] theorem localValid_setLocalValid (st : BitVec 3) : localValid (setLocalValid st) = true := by
  revert st; decide
@[simp] theorem peerValid_setLocalValid (st : BitVec 3) : peerValid (setLocalValid st) = peerValid st := by
  revert st; decide
@[simp] theorem peerMacValid_setLocalValid (st : BitVec 3) : peerMacValid (setLocalValid st) = peerMacValid st := by
  revert st; decide
@[simp] theorem localValid_setPeerValid (st : BitVec 3) : localValid (setPeerValid st) = localValid st := by
  revert st; decide
@[simp] theorem peerValid_setPeerValid (st : BitVec 3) : peerValid (setPeerValid st) = true := by
  revert st; decide
@[simp] theorem peerMacValid_setPeerValid (st : BitVec 3) : peerMacValid (setPeerValid st) = peerMacValid st := by
  revert st; decide
@[simp] theorem localValid_setPeerMacValid (st : BitVec 3) : localValid (setPeerMacValid st) = localValid st := by
  revert st; decide
@[simp] theorem peerValid_setPeerMacValid (st : BitVec 3) : peerValid (setPeerMacValid st) = peerValid st := by
  revert st; decide
@[simp] theorem peerMacValid_setPeerMacValid (st : BitVec 3) : peerMacValid (setPeerMacValid st) = true := by
  revert st; decide
@[simp] theorem localValid_clearPeerMacValid (st : BitVec 3) : localValid (clearPeerMacValid st) = localValid st := by
  revert st; decide
@[simp] theorem peerValid_clearPeerMacValid (st : BitVec 3) : peerValid (clearPeerMacValid st) = peerValid st := by
  revert st; decide
@[simp] theorem peerMacValid_clearPeerMacValid (st : BitVec 3) : peerMacValid (clearPeerMacValid st) = false := by
  revert st; decide
@[simp] theorem localValid_zero : localValid 0b000#3 = false := by decide
@[simp] theorem peerValid_zero : peerValid 0b000#3 = false := by decide
@[simp] theorem peerMacValid_zero : peerMacValid 0b000#3 = false := by decide

/-- STATUS is its three valid bits. -/
theorem status_ext {a b : BitVec 3} (h0 : localValid a = localValid b) (h1 : peerValid a = peerValid b)
    (h2 : peerMacValid a = peerMacValid b) : a = b := by
  revert a b; decide

end Sys2Proof.Machine
end

