-- ==== Sys2Proof/Laws/State.lean ====
section
/-! SUPPORT. One lemma per field per named update of the state, so that no later proof unfolds a record update. -/

namespace Sys2Proof.Machine

@[simp] theorem writeLocal_cfg (mac : Mac) (ip : Ip) (port : Port) (s : State) : (writeLocal mac ip port s).cfg = s.cfg := rfl
@[simp] theorem writeLocal_localMac (mac : Mac) (ip : Ip) (port : Port) (s : State) : (writeLocal mac ip port s).localMac = mac := rfl
@[simp] theorem writeLocal_localIp (mac : Mac) (ip : Ip) (port : Port) (s : State) : (writeLocal mac ip port s).localIp = ip := rfl
@[simp] theorem writeLocal_localPort (mac : Mac) (ip : Ip) (port : Port) (s : State) : (writeLocal mac ip port s).localPort = port := rfl
@[simp] theorem writeLocal_peerMac (mac : Mac) (ip : Ip) (port : Port) (s : State) : (writeLocal mac ip port s).peerMac = s.peerMac := rfl
@[simp] theorem writeLocal_peerIp (mac : Mac) (ip : Ip) (port : Port) (s : State) : (writeLocal mac ip port s).peerIp = s.peerIp := rfl
@[simp] theorem writeLocal_peerPort (mac : Mac) (ip : Ip) (port : Port) (s : State) : (writeLocal mac ip port s).peerPort = s.peerPort := rfl
@[simp] theorem writeLocal_status (mac : Mac) (ip : Ip) (port : Port) (s : State) : (writeLocal mac ip port s).status = setLocalValid s.status := rfl
@[simp] theorem writeLocal_response (mac : Mac) (ip : Ip) (port : Port) (s : State) : (writeLocal mac ip port s).response = s.response := rfl
@[simp] theorem writeLocal_freeCount (mac : Mac) (ip : Ip) (port : Port) (s : State) : (writeLocal mac ip port s).freeCount = s.freeCount := rfl
@[simp] theorem writeLocal_host (mac : Mac) (ip : Ip) (port : Port) (s : State) : (writeLocal mac ip port s).host = s.host := rfl

@[simp] theorem writePeer_cfg (ip : Ip) (port : Port) (s : State) : (writePeer ip port s).cfg = s.cfg := rfl
@[simp] theorem writePeer_localMac (ip : Ip) (port : Port) (s : State) : (writePeer ip port s).localMac = s.localMac := rfl
@[simp] theorem writePeer_localIp (ip : Ip) (port : Port) (s : State) : (writePeer ip port s).localIp = s.localIp := rfl
@[simp] theorem writePeer_localPort (ip : Ip) (port : Port) (s : State) : (writePeer ip port s).localPort = s.localPort := rfl
@[simp] theorem writePeer_peerMac (ip : Ip) (port : Port) (s : State) : (writePeer ip port s).peerMac = s.peerMac := rfl
@[simp] theorem writePeer_peerIp (ip : Ip) (port : Port) (s : State) : (writePeer ip port s).peerIp = ip := rfl
@[simp] theorem writePeer_peerPort (ip : Ip) (port : Port) (s : State) : (writePeer ip port s).peerPort = port := rfl
@[simp] theorem writePeer_status (ip : Ip) (port : Port) (s : State) : (writePeer ip port s).status = setPeerValid s.status := rfl
@[simp] theorem writePeer_response (ip : Ip) (port : Port) (s : State) : (writePeer ip port s).response = s.response := rfl
@[simp] theorem writePeer_freeCount (ip : Ip) (port : Port) (s : State) : (writePeer ip port s).freeCount = s.freeCount := rfl
@[simp] theorem writePeer_host (ip : Ip) (port : Port) (s : State) : (writePeer ip port s).host = s.host := rfl

@[simp] theorem writePeerMac_cfg (mac : Mac) (s : State) : (writePeerMac mac s).cfg = s.cfg := rfl
@[simp] theorem writePeerMac_localMac (mac : Mac) (s : State) : (writePeerMac mac s).localMac = s.localMac := rfl
@[simp] theorem writePeerMac_localIp (mac : Mac) (s : State) : (writePeerMac mac s).localIp = s.localIp := rfl
@[simp] theorem writePeerMac_localPort (mac : Mac) (s : State) : (writePeerMac mac s).localPort = s.localPort := rfl
@[simp] theorem writePeerMac_peerMac (mac : Mac) (s : State) : (writePeerMac mac s).peerMac = mac := rfl
@[simp] theorem writePeerMac_peerIp (mac : Mac) (s : State) : (writePeerMac mac s).peerIp = s.peerIp := rfl
@[simp] theorem writePeerMac_peerPort (mac : Mac) (s : State) : (writePeerMac mac s).peerPort = s.peerPort := rfl
@[simp] theorem writePeerMac_status (mac : Mac) (s : State) : (writePeerMac mac s).status = setPeerMacValid s.status := rfl
@[simp] theorem writePeerMac_response (mac : Mac) (s : State) : (writePeerMac mac s).response = s.response := rfl
@[simp] theorem writePeerMac_freeCount (mac : Mac) (s : State) : (writePeerMac mac s).freeCount = s.freeCount := rfl
@[simp] theorem writePeerMac_host (mac : Mac) (s : State) : (writePeerMac mac s).host = s.host := rfl

@[simp] theorem forgetPeerMac_cfg (s : State) : (forgetPeerMac s).cfg = s.cfg := rfl
@[simp] theorem forgetPeerMac_localMac (s : State) : (forgetPeerMac s).localMac = s.localMac := rfl
@[simp] theorem forgetPeerMac_localIp (s : State) : (forgetPeerMac s).localIp = s.localIp := rfl
@[simp] theorem forgetPeerMac_localPort (s : State) : (forgetPeerMac s).localPort = s.localPort := rfl
@[simp] theorem forgetPeerMac_peerMac (s : State) : (forgetPeerMac s).peerMac = s.peerMac := rfl
@[simp] theorem forgetPeerMac_peerIp (s : State) : (forgetPeerMac s).peerIp = s.peerIp := rfl
@[simp] theorem forgetPeerMac_peerPort (s : State) : (forgetPeerMac s).peerPort = s.peerPort := rfl
@[simp] theorem forgetPeerMac_status (s : State) : (forgetPeerMac s).status = clearPeerMacValid s.status := rfl
@[simp] theorem forgetPeerMac_response (s : State) : (forgetPeerMac s).response = s.response := rfl
@[simp] theorem forgetPeerMac_freeCount (s : State) : (forgetPeerMac s).freeCount = s.freeCount := rfl
@[simp] theorem forgetPeerMac_host (s : State) : (forgetPeerMac s).host = s.host := rfl

@[simp] theorem clearStatus_cfg (s : State) : (clearStatus s).cfg = s.cfg := rfl
@[simp] theorem clearStatus_localMac (s : State) : (clearStatus s).localMac = s.localMac := rfl
@[simp] theorem clearStatus_localIp (s : State) : (clearStatus s).localIp = s.localIp := rfl
@[simp] theorem clearStatus_localPort (s : State) : (clearStatus s).localPort = s.localPort := rfl
@[simp] theorem clearStatus_peerMac (s : State) : (clearStatus s).peerMac = s.peerMac := rfl
@[simp] theorem clearStatus_peerIp (s : State) : (clearStatus s).peerIp = s.peerIp := rfl
@[simp] theorem clearStatus_peerPort (s : State) : (clearStatus s).peerPort = s.peerPort := rfl
@[simp] theorem clearStatus_status (s : State) : (clearStatus s).status = 0b000#3 := rfl
@[simp] theorem clearStatus_response (s : State) : (clearStatus s).response = s.response := rfl
@[simp] theorem clearStatus_freeCount (s : State) : (clearStatus s).freeCount = s.freeCount := rfl
@[simp] theorem clearStatus_host (s : State) : (clearStatus s).host = s.host := rfl

@[simp] theorem hardwareReset_cfg (s : State) : (hardwareReset s).cfg = s.cfg := rfl
@[simp] theorem hardwareReset_localMac (s : State) : (hardwareReset s).localMac = Config.freeLocalMac s.freeCount := rfl
@[simp] theorem hardwareReset_localIp (s : State) : (hardwareReset s).localIp = Config.freeLocalIp s.freeCount := rfl
@[simp] theorem hardwareReset_localPort (s : State) : (hardwareReset s).localPort = Config.freeLocalPort s.freeCount := rfl
@[simp] theorem hardwareReset_peerMac (s : State) : (hardwareReset s).peerMac = Config.freePeerMac s.freeCount := rfl
@[simp] theorem hardwareReset_peerIp (s : State) : (hardwareReset s).peerIp = Config.freePeerIp s.freeCount := rfl
@[simp] theorem hardwareReset_peerPort (s : State) : (hardwareReset s).peerPort = Config.freePeerPort s.freeCount := rfl
@[simp] theorem hardwareReset_status (s : State) : (hardwareReset s).status = 0b000#3 := rfl
@[simp] theorem hardwareReset_response (s : State) : (hardwareReset s).response = none := rfl
@[simp] theorem hardwareReset_freeCount (s : State) : (hardwareReset s).freeCount = s.freeCount + 1 := rfl
@[simp] theorem hardwareReset_host (s : State) : (hardwareReset s).host = s.host := rfl

@[simp] theorem takeEvent_cfg (s : State) : (takeEvent s).cfg = s.cfg := rfl
@[simp] theorem takeEvent_localMac (s : State) : (takeEvent s).localMac = s.localMac := rfl
@[simp] theorem takeEvent_localIp (s : State) : (takeEvent s).localIp = s.localIp := rfl
@[simp] theorem takeEvent_localPort (s : State) : (takeEvent s).localPort = s.localPort := rfl
@[simp] theorem takeEvent_peerMac (s : State) : (takeEvent s).peerMac = s.peerMac := rfl
@[simp] theorem takeEvent_peerIp (s : State) : (takeEvent s).peerIp = s.peerIp := rfl
@[simp] theorem takeEvent_peerPort (s : State) : (takeEvent s).peerPort = s.peerPort := rfl
@[simp] theorem takeEvent_status (s : State) : (takeEvent s).status = s.status := rfl
@[simp] theorem takeEvent_response (s : State) : (takeEvent s).response = s.response := rfl
@[simp] theorem takeEvent_freeCount (s : State) : (takeEvent s).freeCount = s.freeCount := rfl
@[simp] theorem takeEvent_host (s : State) : (takeEvent s).host = s.host.tail := rfl

@[simp] theorem offer_cfg (e : HostEvent) (s : State) : (offer e s).cfg = s.cfg := rfl
@[simp] theorem offer_localMac (e : HostEvent) (s : State) : (offer e s).localMac = s.localMac := rfl
@[simp] theorem offer_localIp (e : HostEvent) (s : State) : (offer e s).localIp = s.localIp := rfl
@[simp] theorem offer_localPort (e : HostEvent) (s : State) : (offer e s).localPort = s.localPort := rfl
@[simp] theorem offer_peerMac (e : HostEvent) (s : State) : (offer e s).peerMac = s.peerMac := rfl
@[simp] theorem offer_peerIp (e : HostEvent) (s : State) : (offer e s).peerIp = s.peerIp := rfl
@[simp] theorem offer_peerPort (e : HostEvent) (s : State) : (offer e s).peerPort = s.peerPort := rfl
@[simp] theorem offer_status (e : HostEvent) (s : State) : (offer e s).status = s.status := rfl
@[simp] theorem offer_response (e : HostEvent) (s : State) : (offer e s).response = s.response := rfl
@[simp] theorem offer_freeCount (e : HostEvent) (s : State) : (offer e s).freeCount = s.freeCount := rfl
@[simp] theorem offer_host (e : HostEvent) (s : State) : (offer e s).host = e :: s.host := rfl

@[simp] theorem answered_cfg (r : Response) (s : State) : (answered r s).cfg = s.cfg := rfl
@[simp] theorem answered_localMac (r : Response) (s : State) : (answered r s).localMac = s.localMac := rfl
@[simp] theorem answered_localIp (r : Response) (s : State) : (answered r s).localIp = s.localIp := rfl
@[simp] theorem answered_localPort (r : Response) (s : State) : (answered r s).localPort = s.localPort := rfl
@[simp] theorem answered_peerMac (r : Response) (s : State) : (answered r s).peerMac = s.peerMac := rfl
@[simp] theorem answered_peerIp (r : Response) (s : State) : (answered r s).peerIp = s.peerIp := rfl
@[simp] theorem answered_peerPort (r : Response) (s : State) : (answered r s).peerPort = s.peerPort := rfl
@[simp] theorem answered_status (r : Response) (s : State) : (answered r s).status = s.status := rfl
@[simp] theorem answered_response (r : Response) (s : State) : (answered r s).response = some r := rfl
@[simp] theorem answered_freeCount (r : Response) (s : State) : (answered r s).freeCount = s.freeCount := rfl
@[simp] theorem answered_host (r : Response) (s : State) : (answered r s).host = s.host := rfl

end Sys2Proof.Machine
end

