-- ==== Sys2Proof/Laws/Ops.lean ====
section
/-! SUPPORT. What the shared ends of an operation and the register read do: said once, cited later. -/

namespace Sys2Proof.Machine

@[simp] theorem respond_eq (r : Response) (s : State) : respond r s = .next (answered r s) := rfl

@[simp] theorem succeed_eq (v : Values) (s : State) : succeed v s = .next (answered (.ok v) s) := rfl

@[simp] theorem fail_eq (f : Failure) (s : State) : fail f s = .next (answered (.failed f) s) := rfl

/-- A later response replaces an earlier one (60_exceptions.md R160: kept nowhere). -/
@[simp] theorem answered_answered (r q : Response) (s : State) : answered r (answered q s) = answered r s := rfl

/-- A state that already holds the response. -/
theorem answered_self {r : Response} {s : State} (h : s.response = some r) : answered r s = s := by
  cases s; simp_all [answered]

/-- Eight register numbers. -/
theorem register_cases (r : BitVec 3) :
    r = 0#3 ∨ r = 1#3 ∨ r = 2#3 ∨ r = 3#3 ∨ r = 4#3 ∨ r = 5#3 ∨ r = 6#3 ∨ r = 7#3 := by
  revert r; decide

@[simp] theorem readRegister_localMac (s : State) : readRegister 0#3 s = s.localMac := rfl
@[simp] theorem readRegister_localIp (s : State) : readRegister 1#3 s = s.localIp.setWidth 48 := rfl
@[simp] theorem readRegister_localPort (s : State) : readRegister 2#3 s = s.localPort.setWidth 48 := rfl
@[simp] theorem readRegister_peerMac (s : State) : readRegister 3#3 s = s.peerMac := rfl
@[simp] theorem readRegister_peerIp (s : State) : readRegister 4#3 s = s.peerIp.setWidth 48 := rfl
@[simp] theorem readRegister_peerPort (s : State) : readRegister 5#3 s = s.peerPort.setWidth 48 := rfl
@[simp] theorem readRegister_status (s : State) : readRegister 6#3 s = s.status.setWidth 48 := rfl

@[simp] theorem registerValid_localMac (s : State) : registerValid 0#3 s = localValid s.status := rfl
@[simp] theorem registerValid_localIp (s : State) : registerValid 1#3 s = localValid s.status := rfl
@[simp] theorem registerValid_localPort (s : State) : registerValid 2#3 s = localValid s.status := rfl
@[simp] theorem registerValid_peerMac (s : State) : registerValid 3#3 s = peerMacValid s.status := rfl
@[simp] theorem registerValid_peerIp (s : State) : registerValid 4#3 s = peerValid s.status := rfl
@[simp] theorem registerValid_peerPort (s : State) : registerValid 5#3 s = peerValid s.status := rfl
@[simp] theorem registerValid_status (s : State) : registerValid 6#3 s = true := rfl

end Sys2Proof.Machine
end

