-- ==== Sys2Proof/Laws/Codec.lean ====
section
/-! SUPPORT. The codec's functions, said once (40_frame_codec.md). -/

namespace Sys2Proof.Machine

theorem withinBounds_iff (seq ty : BitVec 8) (payload : Bytes) :
    withinBounds seq ty payload = true ↔ seq.toNat ≤ 31 ∧ ty.toNat ≤ 15 ∧ payload.length ≤ 127 := by
  simp only [withinBounds, Bool.and_eq_true, decide_eq_true_eq, payloadMax, and_assoc]

@[simp] theorem frameBytes_length (o : FrameBitOrder) (seq : BitVec 5) (ty : BitVec 4) (ck : Byte) (payload : Bytes) :
    (frameBytes o seq ty ck payload).length = 4 + payload.length := by
  simp [frameBytes]; omega

@[simp] theorem marshal_length (o : FrameBitOrder) (seq : BitVec 5) (ty : BitVec 4) (payload : Bytes) :
    (marshal o seq ty payload).length = 4 + payload.length := frameBytes_length ..

/-- Unmarshalling a frame whose length field is good: only the checksum is left to test. -/
theorem unmarshal_frameBytes (o : FrameBitOrder) (seq : BitVec 5) (ty : BitVec 4) (ck : Byte) {payload : Bytes}
    (h : payload.length ≤ 127) :
    unmarshal o (frameBytes o seq ty ck payload) =
      if frameChecksum o seq ty payload = ck then .ok (.fields seq ty (payloadLength payload) ck payload)
      else .failed .checksumMismatch := by
  simp only [unmarshal, frameBytes, frameChecksum, lengthField_headerByte1, typeField_headerByte2,
    sequenceField_headerBytes, payloadLength_toNat h]
  by_cases hc : checksum (payloadLength payload) (headerByte2 o seq ty) ty payload = ck <;> simp [hc]

/-- A payload too long for the length field: the length test fails. -/
theorem unmarshal_frameBytes_long (o : FrameBitOrder) (seq : BitVec 5) (ty : BitVec 4) (ck : Byte) {payload : Bytes}
    (h : 127 < payload.length) :
    unmarshal o (frameBytes o seq ty ck payload) = .failed .truncated := by
  have := (payloadLength payload).isLt
  simp only [unmarshal, frameBytes, lengthField_headerByte1]
  rw [if_neg (by simp), if_pos (by omega)]

/-- What a string that unmarshals is. -/
theorem unmarshal_eq_ok {o : FrameBitOrder} {B : Bytes} {v : Values} (h : unmarshal o B = .ok v) :
    ∃ b1 b2 payload, payload.length = (lengthField o b1).toNat ∧
      B = marker :: b1 :: b2 :: checksum (lengthField o b1) b2 (typeField o b2) payload :: payload ∧
      v = .fields (sequenceField o b1 b2) (typeField o b2) (lengthField o b1)
        (checksum (lengthField o b1) b2 (typeField o b2) payload) payload := by
  unfold unmarshal at h
  split at h
  · rename_i m b1 b2 ck payload
    split_ifs at h with h1 h2 h3
    simp only [ne_eq, not_not] at h1 h2 h3
    refine ⟨b1, b2, payload, by omega, ?_, ?_⟩
    · rw [h1, h3]
    · rw [h3]; exact (Response.ok.inj h).symm
  · cases h

/-- Every answer of the unmarshaller is one of four codes or the fields. -/
theorem unmarshal_cases (o : FrameBitOrder) (B : Bytes) :
    unmarshal o B = .failed .truncated ∨ unmarshal o B = .failed .badMarker ∨
      unmarshal o B = .failed .checksumMismatch ∨
      ∃ seq ty len ck payload, payload.length = len.toNat ∧ unmarshal o B = .ok (.fields seq ty len ck payload) := by
  cases h : unmarshal o B with
  | ok v =>
    obtain ⟨b1, b2, payload, hl, -, rfl⟩ := unmarshal_eq_ok h
    exact .inr (.inr (.inr ⟨_, _, _, _, _, hl, rfl⟩))
  | failed f =>
    unfold unmarshal at h
    split at h
    · split_ifs at h <;> cases h <;> simp
    · cases h; simp

end Sys2Proof.Machine
end

