-- ==== Sys2Proof/Laws/Decode.lean ====
section
/-! SUPPORT. The decoder's shared parts, said once: operand bytes of the right number, and byte strings after their
length. -/

namespace Sys2Proof

open Machine

/-- With exactly the operand bytes there, the instruction is read. -/
@[simp] theorem decodeExact_self (B : Bytes) (i : Instr) : decodeExact B.length B i = .ok i := by simp [decodeExact]

/-- An instruction is read only with exactly its operand bytes there. -/
theorem decodeExact_eq_ok {n : Nat} {B : Bytes} {i j : Instr} :
    decodeExact n B i = .ok j ↔ B.length = n ∧ i = j := by
  unfold decodeExact
  split_ifs with h1 h2
  · simp; omega
  · simp; omega
  · simp only [Except.ok.injEq]; exact ⟨fun h => ⟨by omega, h⟩, fun h => h.2⟩

/-- A string within RX_MAX after its length is read. -/
theorem decodeLongString_encodeLongString {c : Config} (mk : Bytes → Instr) {B : Bytes}
    (h : B.length ≤ c.rxMax.toNat) : decodeLongString c mk (encodeLongString B) = .ok (mk B) := by
  have hmax := c.rxMax.isLt
  have e : bigEndian (be16 (BitVec.ofNat 16 B.length)) = B.length := by rw [bigEndian_be16]; simp; omega
  simp only [be16] at e
  simp only [encodeLongString, be16, List.cons_append, List.nil_append, decodeLongString, e]
  rw [if_neg (by omega), decodeExact_self]

/-- A long string that is read is within RX_MAX, and stands after its length. -/
theorem decodeLongString_eq_ok {c : Config} {mk : Bytes → Instr} {bytes : Bytes} {i : Instr}
    (h : decodeLongString c mk bytes = .ok i) :
    ∃ B : Bytes, i = mk B ∧ B.length ≤ c.rxMax.toNat ∧ encodeLongString B = bytes := by
  unfold decodeLongString at h
  split at h
  · split_ifs at h with hlen
    obtain ⟨hl, rfl⟩ := decodeExact_eq_ok.mp h
    refine ⟨_, rfl, by omega, ?_⟩
    rw [encodeLongString, hl, be16_bigEndian]; rfl
  · cases h

/-- A frame's bytes are read as the frame they are (30_encoding.md R46, R47). -/
theorem decodeFrameRecord_frameBytes (o : FrameBitOrder) (t : MessageType) (seq : BitVec 5) (ck : Byte)
    {payload : Bytes} (h : payload.length ≤ 127) :
    decodeFrameRecord o (frameBytes o seq (typeNumber t) ck payload).tail = .ok (frameInstr t seq ck payload) := by
  simp [frameBytes, decodeFrameRecord, payloadLength_toNat h]

end Sys2Proof
end

