-- ==== Sys2Proof/Laws/Link.lean ====
section
/-! SUPPORT. The header builder and parser, said once (41_link_headers.md). -/

namespace Sys2Proof.Machine

@[simp] theorem ipHeader_length (c : Config) (n : Nat) (src dst : Ip) : (ipHeader c n src dst).length = 20 := rfl

@[simp] theorem ethHeader_length (c : Config) (dmac smac : Mac) : (ethHeader c dmac smac).length = 14 := rfl

@[simp] theorem udpHeader_length (c : Config) (n : Nat) (src dst : Port) : (udpHeader c n src dst).length = 8 := rfl

@[simp] theorem buildPacket_length (s : State) (F : Bytes) : (buildPacket s F).length = 42 + F.length := by
  simp [buildPacket]; omega

/-- The IPv4 header, its checksum in bytes 10 and 11. -/
theorem ipHeader_eq (c : Config) (n : Nat) (src dst : Ip) :
    ipHeader c n src dst =
      [ipVersionLength, c.ipTos] ++ be16 (BitVec.ofNat 16 (28 + n)) ++ be16 c.ipId ++ be16 c.ipFrag
        ++ [c.ipTtl, ipProtoUdp] ++ be16 (ipck (ipHeaderZero c n src dst)) ++ be32 src ++ be32 dst := rfl

/-- The seven tests of the filter. -/
theorem accepts_iff (s : State) (P : Bytes) :
    accepts s P = true ↔
      42 ≤ P.length ∧ memRead P 12 2 = s.cfg.ethertypeIpv4.toNat ∧ byteAt P 23 = 17#8 ∧
        memRead P 30 4 = s.localIp.toNat ∧ memRead P 36 2 = s.localPort.toNat ∧ 8 ≤ memRead P 38 2 ∧
        34 + memRead P 38 2 ≤ P.length := by
  simp only [accepts, Bool.and_eq_true, decide_eq_true_eq, beq_iff_eq, pktHdr, ipProtoUdp, udpHdr, and_assoc]
  exact Iff.rfl

/-- Learning writes the peer's address, and its link address when the parameter says so. -/
theorem learnPeer_eq (P : Bytes) (s : State) :
    learnPeer P s =
      { s with
        peerIp := sourceIp P
        peerPort := sourcePort P
        peerMac := if s.cfg.learnPeerMac then sourceMac P else s.peerMac
        status := if s.cfg.learnPeerMac then setPeerMacValid (setPeerValid s.status) else setPeerValid s.status } := by
  unfold learnPeer; split <;> rfl

/-- The words of a header sum to less than 2^20 (41_link_headers.md R91). -/
theorem wordSum_le (H : Bytes) : wordSum H ≤ 655350 := by
  have h : ∀ k, memRead H (2 * k) 2 < 65536 := fun k => memRead_lt H (2 * k) 2
  simp only [wordSum, List.range, List.range.loop, List.map, List.sum_cons, List.sum_nil]
  have h0 := h 0; have h1 := h 1; have h2 := h 2; have h3 := h 3; have h4 := h 4
  have h5 := h 5; have h6 := h 6; have h7 := h 7; have h8 := h 8; have h9 := h 9
  omega

/-- Two rounds of end-around carry bring such a sum into 16 bits, without changing it modulo 65535, and leave 0 only
from 0. -/
theorem foldCarry_spec {n : Nat} (h : n ≤ 720885) :
    foldCarry 2 n ≤ 65535 ∧ foldCarry 2 n % 65535 = n % 65535 ∧ (foldCarry 2 n = 0 ↔ n = 0) := by
  simp only [foldCarry]
  split_ifs <;> omega

end Sys2Proof.Machine
end

