-- ==== Sys2Proof/Laws/Exec.lean ====
section
/-! SUPPORT. What executing an instruction can do, said once: it answers a next state with a response, and writes a
register only in five ways. -/

namespace Sys2Proof.Machine

/-- Two next states are equal exactly when the states are. -/
theorem next_eq_next {s t : State} : (Host.Outcome.next s : Outcome) = .next t ↔ s = t := by simp

/-- Two responses to one state are the same state exactly when they are the same response. -/
theorem answered_eq_answered {r q : Response} {s : State} : answered r s = answered q s ↔ r = q := by
  refine ⟨fun h => ?_, fun h => h ▸ rfl⟩
  simpa using congrArg State.response h

theorem exec_fcEncode (s : State) (seq ty : BitVec 8) (payload : Bytes) :
    exec (.fcEncode seq ty payload) s = .next (answered
      (if withinBounds seq ty payload then
        .ok (.frame (marshal s.cfg.frameBitOrder (seq.setWidth 5) (ty.setWidth 4) payload))
        else .failed .invalidArgument) s) := by
  simp only [exec, execFcEncode]; split <;> rfl

theorem exec_fcCksum (s : State) (seq ty : BitVec 8) (payload : Bytes) :
    exec (.fcCksum seq ty payload) s = .next (answered
      (if withinBounds seq ty payload then
        .ok (.checksum (frameChecksum s.cfg.frameBitOrder (seq.setWidth 5) (ty.setWidth 4) payload))
        else .failed .invalidArgument) s) := by
  simp only [exec, execFcCksum]; split <;> rfl

theorem exec_fcDecode (s : State) (B : Bytes) :
    exec (.fcDecode B) s = .next (answered (unmarshal s.cfg.frameBitOrder B) s) := rfl

/-- Every frame row is the one shared operation. -/
theorem exec_frameInstr (t : MessageType) (seq : BitVec 5) (ck : Byte) (payload : Bytes) (s : State) :
    exec (frameInstr t seq ck payload) s = takeFrame t seq ck payload s := by
  cases t <;> rfl

theorem exec_ltBuild (s : State) (F : Bytes) :
    exec (.ltBuild F) s = .next (answered
      (if localValid s.status = false ∨ peerValid s.status = false then .failed .notConfigured
        else if frameMax < F.length then .failed .invalidArgument
        else .ok (.packet (buildPacket s F))) s) := by
  simp only [exec, execLtBuild]
  cases localValid s.status <;> cases peerValid s.status <;> simp
  split <;> rfl

theorem exec_ltParse (s : State) (P : Bytes) :
    exec (.ltParse P) s =
      if localValid s.status = true then
        if accepts s P = true then
          .next (answered (.ok (.parsed (packetFrame P) (sourceMac P) (sourceIp P) (sourcePort P))) (learnPeer P s))
        else .next (answered (.failed .discard) s)
      else .next (answered (.failed .notConfigured) s) := rfl

theorem exec_ltRd (s : State) (r : BitVec 3) :
    exec (.ltRd r) s = .next (answered
      (if r = 7#3 then .failed .invalidArgument
        else if registerValid r s = true then .ok (.register (readRegister r s))
        else .failed .notConfigured) s) := by
  simp only [exec, execLtRd]
  split
  · rfl
  · split <;> rfl

/-- The meaning of every instruction answers a next state that holds a response. -/
theorem exec_answers (i : Instr) (s : State) : ∃ t r, exec i s = .next t ∧ t.response = some r := by
  cases i <;>
    simp only [exec, execFcEncode, execFcDecode, execFcCksum, execLtBuild, execLtParse, execLtSetup, execLtSetdest,
      execLtSetpeermac, execLtRd, execLtReset, execReserved0, execReserved6, execReserved7, execReservedC,
      execReservedD, execReservedE, illegalOp, execAck, execNack, execOkAck, execStart, execSize, execData,
      execTextNameAck, execVideoNameAck, execImageNameAck, execEndOfFile, execMoveRight, execMoveUp, execMoveDown,
      execMoveLeft, execMapUpdate, execError, takeFrame, respond_eq, succeed_eq, fail_eq] <;>
    (try split_ifs) <;> exact ⟨_, _, rfl, rfl⟩

/-- How an instruction changes the state, the response aside. -/
inductive Effect (i : Instr) (s : State) : State → Prop where
  | none : Effect i s s
  | setup (mac : Mac) (ip : Ip) (port : Port) (h : i = .ltSetup mac ip port) : Effect i s (writeLocal mac ip port s)
  | setdest (ip : Ip) (port : Port) (h : i = .ltSetdest ip port) : Effect i s (forgetPeerMac (writePeer ip port s))
  | setpeermac (mac : Mac) (h : i = .ltSetpeermac true mac) : Effect i s (writePeerMac mac s)
  | forget (mac : Mac) (h : i = .ltSetpeermac false mac) : Effect i s (forgetPeerMac s)
  | learn (P : Bytes) (h : i = .ltParse P) (hv : localValid s.status = true) (ha : accepts s P = true) :
      Effect i s (learnPeer P s)
  | reset (h : i = .ltReset) : Effect i s (clearStatus s)

/-- A next state is one of the effects, with a response; a failed one is the state as it was. -/
theorem exec_effect {i : Instr} {s t : State} (h : exec i s = .next t) :
    ∃ u r, Effect i s u ∧ t = answered r u ∧ (∀ f, r = .failed f → u = s) := by
  cases i <;>
    simp only [exec, execFcEncode, execFcDecode, execFcCksum, execLtBuild, execLtParse, execLtSetup, execLtSetdest,
      execLtSetpeermac, execLtRd, execLtReset, execReserved0, execReserved6, execReserved7, execReservedC,
      execReservedD, execReservedE, illegalOp, execAck, execNack, execOkAck, execStart, execSize, execData,
      execTextNameAck, execVideoNameAck, execImageNameAck, execEndOfFile, execMoveRight, execMoveUp, execMoveDown,
      execMoveLeft, execMapUpdate, execError, takeFrame, respond_eq, succeed_eq, fail_eq] at h
  case ltParse P =>
    split_ifs at h with hv ha <;> injection h with h
    · exact ⟨_, _, .learn P rfl hv ha, h.symm, by simp⟩
    · exact ⟨_, _, .none, h.symm, fun _ _ => rfl⟩
    · exact ⟨_, _, .none, h.symm, fun _ _ => rfl⟩
  case ltSetup mac ip port =>
    injection h with h; exact ⟨_, _, .setup mac ip port rfl, h.symm, by simp⟩
  case ltSetdest ip port =>
    injection h with h; exact ⟨_, _, .setdest ip port rfl, h.symm, by simp⟩
  case ltSetpeermac valid mac =>
    cases valid <;> simp only [Bool.false_eq_true, if_false, if_true] at h <;> injection h with h
    · exact ⟨_, _, .forget mac rfl, h.symm, by simp⟩
    · exact ⟨_, _, .setpeermac mac rfl, h.symm, by simp⟩
  case ltReset =>
    injection h with h; exact ⟨_, _, .reset rfl, h.symm, by simp⟩
  all_goals
    (try split_ifs at h) <;> injection h with h <;> exact ⟨_, _, .none, h.symm, fun _ _ => rfl⟩

/-- No instruction changes the parameters, the host's plans, or the count of free contents. -/
theorem exec_keeps {i : Instr} {s t : State} (h : exec i s = .next t) :
    t.cfg = s.cfg ∧ t.host = s.host ∧ t.freeCount = s.freeCount := by
  obtain ⟨u, r, e, rfl, -⟩ := exec_effect h
  cases e <;> simp [learnPeer_eq]

/-- What stands at the port with nothing from the host. -/
@[simp] theorem fetch_nil {s : State} (h : s.host = []) : fetch s = .idle := by simp [fetch, h]

/-- What stands at the port when the host issues a record the decoder reads. -/
theorem fetch_issue {s : State} {record : Bytes} {rest : List HostEvent} {i : Instr}
    (h : s.host = .issue record :: rest) (hd : decode s.cfg record = .ok i) :
    fetch s = .instruction i { s with host := rest } := by
  simp [fetch, h, hd, takeEvent]

end Sys2Proof.Machine
end

