-- ==== Sys2Proof/Laws/Parameters.lean ====
section
/-! SUPPORT. The three error codes are distinct bytes (43_message_types.md R152). -/

namespace Sys2Proof.Machine

theorem errorCodesDistinct_iff (c : Config) :
    errorCodesDistinct c = true ↔ c.errNoPermission ≠ c.errInsufficientSpace ∧
      c.errNoPermission ≠ c.errForbiddenMove ∧ c.errInsufficientSpace ≠ c.errForbiddenMove := by
  simp only [errorCodesDistinct, Bool.and_eq_true, decide_eq_true_eq, and_assoc]

/-- Where they are distinct, the byte says which error code it is. -/
theorem errorCodeByte_injective {c : Config} (h : errorCodesDistinct c = true) :
    Function.Injective (errorCodeByte c) := by
  obtain ⟨h1, h2, h3⟩ := (errorCodesDistinct_iff c).mp h
  intro e e' he
  cases e <;> cases e' <;> simp only [errorCodeByte] at he <;> first | rfl | exact absurd he ‹_› | exact absurd he.symm ‹_›

/-- At reset they are distinct, whatever bytes they are. -/
theorem errorCodesDistinct_standardConfig : errorCodesDistinct standardConfig = true := by
  simp [errorCodesDistinct_iff, standardConfig]

end Sys2Proof.Machine
end

