-- ==== Sys2Proof/Laws/PerInstr.lean ====
section
/-! SUPPORT. Statements made per instruction. `Lead`: the first byte of an instruction's record is its operation code
below a zero nibble (30_encoding.md R58, R59; log 5), or a frame's marker (R45). -/

namespace Sys2Proof.Laws.Lead

open Machine

/-- The byte a record of the instruction begins with. -/
def leadByte : Instr → Byte
  | .fcEncode _ _ _ => 0x01#8
  | .fcDecode _ => 0x02#8
  | .fcCksum _ _ _ => 0x03#8
  | .ltBuild _ => 0x04#8
  | .ltParse _ => 0x05#8
  | .ltSetup _ _ _ => 0x08#8
  | .ltSetdest _ _ => 0x09#8
  | .ltSetpeermac _ _ => 0x0A#8
  | .ltRd _ => 0x0B#8
  | .ltReset => 0x0F#8
  | .reserved0 _ => 0x00#8
  | .reserved6 _ => 0x06#8
  | .reserved7 _ => 0x07#8
  | .reservedC _ => 0x0C#8
  | .reservedD _ => 0x0D#8
  | .reservedE _ => 0x0E#8
  | .ack _ _ _ => 0x7E#8
  | .nack _ _ _ => 0x7E#8
  | .okAck _ _ _ => 0x7E#8
  | .start _ _ _ => 0x7E#8
  | .size _ _ _ => 0x7E#8
  | .data _ _ _ => 0x7E#8
  | .textNameAck _ _ _ => 0x7E#8
  | .videoNameAck _ _ _ => 0x7E#8
  | .imageNameAck _ _ _ => 0x7E#8
  | .endOfFile _ _ _ => 0x7E#8
  | .moveRight _ _ _ => 0x7E#8
  | .moveUp _ _ _ => 0x7E#8
  | .moveDown _ _ _ => 0x7E#8
  | .moveLeft _ _ _ => 0x7E#8
  | .mapUpdate _ _ _ => 0x7E#8
  | .error _ _ _ => 0x7E#8

/-- The record of the instruction begins with that byte, whatever the parameters. -/
def Statement (i : Instr) : Prop := ∀ c : Config, (encode c i).head? = some (leadByte i)

theorem fcEncode (seq ty : BitVec 8) (payload : Bytes) : Statement (.fcEncode seq ty payload) := fun _ => rfl

theorem fcDecode (B : Bytes) : Statement (.fcDecode B) := fun _ => rfl

theorem fcCksum (seq ty : BitVec 8) (payload : Bytes) : Statement (.fcCksum seq ty payload) := fun _ => rfl

theorem ltBuild (F : Bytes) : Statement (.ltBuild F) := fun _ => rfl

theorem ltParse (P : Bytes) : Statement (.ltParse P) := fun _ => rfl

theorem ltSetup (mac : Mac) (ip : Ip) (port : Port) : Statement (.ltSetup mac ip port) := fun _ => rfl

theorem ltSetdest (ip : Ip) (port : Port) : Statement (.ltSetdest ip port) := fun _ => rfl

theorem ltSetpeermac (valid : Bool) (mac : Mac) : Statement (.ltSetpeermac valid mac) := fun _ => rfl

theorem ltRd (r : BitVec 3) : Statement (.ltRd r) := fun _ => rfl

theorem ltReset : Statement (.ltReset) := fun _ => rfl

theorem reserved0 (operands : Bytes) : Statement (.reserved0 operands) := fun _ => rfl

theorem reserved6 (operands : Bytes) : Statement (.reserved6 operands) := fun _ => rfl

theorem reserved7 (operands : Bytes) : Statement (.reserved7 operands) := fun _ => rfl

theorem reservedC (operands : Bytes) : Statement (.reservedC operands) := fun _ => rfl

theorem reservedD (operands : Bytes) : Statement (.reservedD operands) := fun _ => rfl

theorem reservedE (operands : Bytes) : Statement (.reservedE operands) := fun _ => rfl

theorem ack (seq : BitVec 5) (ck : Byte) (payload : Bytes) : Statement (.ack seq ck payload) := fun _ => rfl

theorem nack (seq : BitVec 5) (ck : Byte) (payload : Bytes) : Statement (.nack seq ck payload) := fun _ => rfl

theorem okAck (seq : BitVec 5) (ck : Byte) (payload : Bytes) : Statement (.okAck seq ck payload) := fun _ => rfl

theorem start (seq : BitVec 5) (ck : Byte) (payload : Bytes) : Statement (.start seq ck payload) := fun _ => rfl

theorem size (seq : BitVec 5) (ck : Byte) (payload : Bytes) : Statement (.size seq ck payload) := fun _ => rfl

theorem data (seq : BitVec 5) (ck : Byte) (payload : Bytes) : Statement (.data seq ck payload) := fun _ => rfl

theorem textNameAck (seq : BitVec 5) (ck : Byte) (payload : Bytes) : Statement (.textNameAck seq ck payload) := fun _ => rfl

theorem videoNameAck (seq : BitVec 5) (ck : Byte) (payload : Bytes) : Statement (.videoNameAck seq ck payload) := fun _ => rfl

theorem imageNameAck (seq : BitVec 5) (ck : Byte) (payload : Bytes) : Statement (.imageNameAck seq ck payload) := fun _ => rfl

theorem endOfFile (seq : BitVec 5) (ck : Byte) (payload : Bytes) : Statement (.endOfFile seq ck payload) := fun _ => rfl

theorem moveRight (seq : BitVec 5) (ck : Byte) (payload : Bytes) : Statement (.moveRight seq ck payload) := fun _ => rfl

theorem moveUp (seq : BitVec 5) (ck : Byte) (payload : Bytes) : Statement (.moveUp seq ck payload) := fun _ => rfl

theorem moveDown (seq : BitVec 5) (ck : Byte) (payload : Bytes) : Statement (.moveDown seq ck payload) := fun _ => rfl

theorem moveLeft (seq : BitVec 5) (ck : Byte) (payload : Bytes) : Statement (.moveLeft seq ck payload) := fun _ => rfl

theorem mapUpdate (seq : BitVec 5) (ck : Byte) (payload : Bytes) : Statement (.mapUpdate seq ck payload) := fun _ => rfl

theorem error (seq : BitVec 5) (ck : Byte) (payload : Bytes) : Statement (.error seq ck payload) := fun _ => rfl

end Sys2Proof.Laws.Lead
end

