-- ==== Sys2Proof/Tests/Slice0.lean ====
section
/-! SUPPORT. The model's own tests: the ill-formed terms each well-formedness check refuses, a word written out from the
spec's encoding for every constructor, vectors of 95_test_vectors.md and of the rules' examples, and a witness for the
hypotheses of every obligation that has some. Expected values are the spec's. -/

namespace Sys2Proof.Tests

open Machine Safety

/-! ### Small states and packets -/

/-- The response an outcome holds at the port. -/
def responseOf : Outcome → Option Response
  | .next t => t.response
  | .fault _ => none
  | .refused _ => none

/-- The test `p` on the next state, false where there is none. -/
def after (o : Outcome) (p : State → Bool) : Bool :=
  match o with
  | .next t => p t
  | .fault _ => false
  | .refused _ => false

/-- The client of 95_test_vectors.md section 2.5 after program 1: 192.168.0.10:5000, peer 192.168.0.20:6000. -/
def client : State :=
  { State.reset with
    localMac := 0x020000000001#48, localIp := 0xC0A8000A#32, localPort := 5000#16
    peerIp := 0xC0A80014#32, peerPort := 6000#16, status := 0b011#3 }

/-- The client with the peer's link address known (vector Q3). -/
def clientKnowing : State := { client with peerMac := 0x020000000002#48, status := 0b111#3 }

/-- The server of 95_test_vectors.md section 2.6: 192.168.0.20:6000, no peer yet. -/
def server : State :=
  { State.reset with
    localMac := 0x020000000002#48, localIp := 0xC0A80014#32, localPort := 6000#16, status := 0b001#3 }

/-- The reset state with FRAME_BIT_ORDER = MSB_FIRST. -/
def msbUnit : State := { State.reset with cfg := { standardConfig with frameBitOrder := .msbFirst } }

/-- Packet Q1 of 95_test_vectors.md. -/
def packetQ1 : Bytes :=
  [0xFF#8, 0xFF#8, 0xFF#8, 0xFF#8, 0xFF#8, 0xFF#8, 0x02#8, 0x00#8, 0x00#8, 0x00#8, 0x00#8, 0x01#8, 0x08#8, 0x00#8]
    ++ [0x45#8, 0x00#8, 0x00#8, 0x20#8, 0x00#8, 0x00#8, 0x00#8, 0x00#8, 0x40#8, 0x11#8, 0xF9#8, 0x5E#8, 0xC0#8, 0xA8#8]
    ++ [0x00#8, 0x0A#8, 0xC0#8, 0xA8#8, 0x00#8, 0x14#8, 0x13#8, 0x88#8, 0x17#8, 0x70#8, 0x00#8, 0x0C#8, 0x00#8, 0x00#8]
    ++ [0x7E#8, 0x00#8, 0x30#8, 0x33#8]

/-- Packet Q3 of 95_test_vectors.md. -/
def packetQ3 : Bytes :=
  [0x02#8, 0x00#8, 0x00#8, 0x00#8, 0x00#8, 0x02#8, 0x02#8, 0x00#8, 0x00#8, 0x00#8, 0x00#8, 0x01#8, 0x08#8, 0x00#8]
    ++ [0x45#8, 0x00#8, 0x00#8, 0x23#8, 0x00#8, 0x00#8, 0x00#8, 0x00#8, 0x40#8, 0x11#8, 0xF9#8, 0x5B#8, 0xC0#8, 0xA8#8]
    ++ [0x00#8, 0x0A#8, 0xC0#8, 0xA8#8, 0x00#8, 0x14#8, 0x13#8, 0x88#8, 0x17#8, 0x70#8, 0x00#8, 0x0F#8, 0x00#8, 0x00#8]
    ++ [0x7E#8, 0x83#8, 0x52#8, 0x54#8, 0x48#8, 0x69#8, 0x21#8]

/-- A payload of `n` bytes. -/
def zeros (n : Nat) : Bytes := List.replicate n 0x00#8

/-- The state with one record at the port. -/
def issuing (record : Bytes) : State := offer (.issue record) State.reset

/-! ### Well-formedness: an ill-formed term for each check -/

theorem test_wf_refuses_long_operands :
    (Instr.fcEncode 0#8 0#8 (zeros 256)).wellFormed standardConfig = false ∧
      (Instr.fcCksum 0#8 0#8 (zeros 256)).wellFormed standardConfig = false ∧
      (Instr.ltBuild (zeros 256)).wellFormed standardConfig = false ∧
      (Instr.fcEncode 0#8 0#8 (zeros 255)).wellFormed standardConfig = true := by decide +kernel

theorem test_wf_refuses_operands_over_rx_max :
    (Instr.fcDecode (zeros 9)).wellFormed { standardConfig with rxMax := 8#16 } = false ∧
      (Instr.ltParse (zeros 9)).wellFormed { standardConfig with rxMax := 8#16 } = false ∧
      (Instr.ltParse (zeros 8)).wellFormed { standardConfig with rxMax := 8#16 } = true := by decide +kernel

theorem test_wf_refuses_long_frames :
    ∀ t ∈ [MessageType.ack, .nack, .okAck, .start, .size, .data, .textNameAck, .videoNameAck, .imageNameAck, .endOfFile,
        .moveRight, .moveUp, .moveDown, .moveLeft, .mapUpdate, .error],
      (frameInstr t 0#5 0x00#8 (zeros 128)).wellFormed standardConfig = false ∧
        (frameInstr t 0#5 0x00#8 (zeros 127)).wellFormed standardConfig = true := by decide +kernel

/-! ### Decoding: a word of every constructor, written out from its format (30_encoding.md R58 with log 5; R45, R46) -/

theorem test_decode_fcEncode : decode standardConfig [0x01#8, 0x05#8, 0x05#8, 0x03#8, 0x48#8, 0x69#8, 0x21#8]
    = .ok (.fcEncode 5#8 5#8 [0x48#8, 0x69#8, 0x21#8]) := by decide +kernel

theorem test_decode_fcDecode : decode standardConfig [0x02#8, 0x00#8, 0x04#8, 0x7E#8, 0x00#8, 0x00#8, 0x00#8]
    = .ok (.fcDecode [0x7E#8, 0x00#8, 0x00#8, 0x00#8]) := by decide +kernel

theorem test_decode_fcCksum : decode standardConfig [0x03#8, 0x03#8, 0x06#8, 0x05#8, 0x61#8, 0x2E#8, 0x74#8, 0x78#8, 0x74#8]
    = .ok (.fcCksum 3#8 6#8 [0x61#8, 0x2E#8, 0x74#8, 0x78#8, 0x74#8]) := by decide +kernel

theorem test_decode_ltBuild : decode standardConfig [0x04#8, 0x04#8, 0x7E#8, 0x00#8, 0x30#8, 0x33#8]
    = .ok (.ltBuild [0x7E#8, 0x00#8, 0x30#8, 0x33#8]) := by decide +kernel

theorem test_decode_ltParse : decode standardConfig [0x05#8, 0x00#8, 0x02#8, 0xAB#8, 0xCD#8]
    = .ok (.ltParse [0xAB#8, 0xCD#8]) := by decide +kernel

theorem test_decode_ltSetup : decode standardConfig [0x08#8, 0x02#8, 0x00#8, 0x00#8, 0x00#8, 0x00#8, 0x01#8, 0xC0#8, 0xA8#8, 0x00#8, 0x0A#8, 0x13#8, 0x88#8]
    = .ok (.ltSetup 0x020000000001#48 0xC0A8000A#32 5000#16) := by decide +kernel

theorem test_decode_ltSetdest : decode standardConfig [0x09#8, 0xC0#8, 0xA8#8, 0x00#8, 0x14#8, 0x17#8, 0x70#8]
    = .ok (.ltSetdest 0xC0A80014#32 6000#16) := by decide +kernel

theorem test_decode_ltSetpeermac : decode standardConfig [0x0A#8, 0x01#8, 0x02#8, 0x00#8, 0x00#8, 0x00#8, 0x00#8, 0x02#8]
    = .ok (.ltSetpeermac true 0x020000000002#48) := by decide +kernel

theorem test_decode_ltRd : decode standardConfig [0x0B#8, 0x04#8]
    = .ok (.ltRd 4#3) := by decide +kernel

theorem test_decode_ltReset : decode standardConfig [0x0F#8]
    = .ok (.ltReset) := by decide +kernel

theorem test_decode_reserved0 : decode standardConfig [0x00#8, 0x12#8, 0x34#8]
    = .ok (.reserved0 [0x12#8, 0x34#8]) := by decide +kernel

theorem test_decode_reserved6 : decode standardConfig [0x06#8, 0x12#8, 0x34#8]
    = .ok (.reserved6 [0x12#8, 0x34#8]) := by decide +kernel

theorem test_decode_reserved7 : decode standardConfig [0x07#8, 0x12#8, 0x34#8]
    = .ok (.reserved7 [0x12#8, 0x34#8]) := by decide +kernel

theorem test_decode_reservedC : decode standardConfig [0x0C#8, 0x12#8, 0x34#8]
    = .ok (.reservedC [0x12#8, 0x34#8]) := by decide +kernel

theorem test_decode_reservedD : decode standardConfig [0x0D#8, 0x12#8, 0x34#8]
    = .ok (.reservedD [0x12#8, 0x34#8]) := by decide +kernel

theorem test_decode_reservedE : decode standardConfig [0x0E#8, 0x12#8, 0x34#8]
    = .ok (.reservedE [0x12#8, 0x34#8]) := by decide +kernel

theorem test_decode_rejects :
    decode standardConfig [] = .error .emptyRecord ∧
      decode standardConfig [0x1F#8] = .error (.unknownLead 0x1F#8) ∧
      decode standardConfig [0x08#8, 0x00#8] = .error .shortRecord ∧
      decode standardConfig [0x0F#8, 0x00#8] = .error .trailingBytes ∧
      decode standardConfig [0x0B#8, 0x08#8] = .error .operandOutOfRange ∧
      decode standardConfig [0x02#8, 0xFF#8, 0xFF#8] = .error .operandTooLong ∧
      decode standardConfig [0x7E#8, 0x01#8, 0x00#8, 0x00#8] = .error .shortRecord := by decide +kernel

/-! The sixteen frame types: the example of each rule R136 to R151 decodes to the type's constructor, FC.ENCODE of the
example's operands makes those bytes, and the frame at the port answers its fields. -/

theorem test_frame_ack :
    decode standardConfig [0x7E#8, 0x80#8, 0x00#8, 0x00#8] = .ok (.ack 1#5 0x00#8 []) ∧
      responseOf (exec (.fcEncode 1#8 0#8 []) State.reset) = some (.ok (.frame [0x7E#8, 0x80#8, 0x00#8, 0x00#8])) ∧
      responseOf (exec (.ack 1#5 0x00#8 []) State.reset)
        = some (.ok (.fields 1#5 0#4 0#7 0x00#8 [])) := by decide +kernel

theorem test_frame_nack :
    decode standardConfig [0x7E#8, 0x00#8, 0x12#8, 0x13#8] = .ok (.nack 4#5 0x13#8 []) ∧
      responseOf (exec (.fcEncode 4#8 1#8 []) State.reset) = some (.ok (.frame [0x7E#8, 0x00#8, 0x12#8, 0x13#8])) ∧
      responseOf (exec (.nack 4#5 0x13#8 []) State.reset)
        = some (.ok (.fields 4#5 1#4 0#7 0x13#8 [])) := by decide +kernel

theorem test_frame_okAck :
    decode standardConfig [0x7E#8, 0x80#8, 0x23#8, 0x21#8] = .ok (.okAck 7#5 0x21#8 []) ∧
      responseOf (exec (.fcEncode 7#8 2#8 []) State.reset) = some (.ok (.frame [0x7E#8, 0x80#8, 0x23#8, 0x21#8])) ∧
      responseOf (exec (.okAck 7#5 0x21#8 []) State.reset)
        = some (.ok (.fields 7#5 2#4 0#7 0x21#8 [])) := by decide +kernel

theorem test_frame_start :
    decode standardConfig [0x7E#8, 0x00#8, 0x35#8, 0x36#8] = .ok (.start 10#5 0x36#8 []) ∧
      responseOf (exec (.fcEncode 10#8 3#8 []) State.reset) = some (.ok (.frame [0x7E#8, 0x00#8, 0x35#8, 0x36#8])) ∧
      responseOf (exec (.start 10#5 0x36#8 []) State.reset)
        = some (.ok (.fields 10#5 3#4 0#7 0x36#8 [])) := by decide +kernel

theorem test_frame_size :
    decode standardConfig [0x7E#8, 0x88#8, 0x46#8, 0xA1#8, 0x00#8, 0x00#8, 0x00#8, 0x00#8, 0x00#8, 0x00#8, 0x03#8, 0xE8#8] = .ok (.size 13#5 0xA1#8 [0x00#8, 0x00#8, 0x00#8, 0x00#8, 0x00#8, 0x00#8, 0x03#8, 0xE8#8]) ∧
      responseOf (exec (.fcEncode 13#8 4#8 [0x00#8, 0x00#8, 0x00#8, 0x00#8, 0x00#8, 0x00#8, 0x03#8, 0xE8#8]) State.reset) = some (.ok (.frame [0x7E#8, 0x88#8, 0x46#8, 0xA1#8, 0x00#8, 0x00#8, 0x00#8, 0x00#8, 0x00#8, 0x00#8, 0x03#8, 0xE8#8])) ∧
      responseOf (exec (.size 13#5 0xA1#8 [0x00#8, 0x00#8, 0x00#8, 0x00#8, 0x00#8, 0x00#8, 0x03#8, 0xE8#8]) State.reset)
       
          = some (.ok (.fields 13#5 4#4 8#7 0xA1#8 [0x00#8, 0x00#8, 0x00#8, 0x00#8, 0x00#8, 0x00#8, 0x03#8, 0xE8#8])) := by decide +kernel

theorem test_frame_data :
    decode standardConfig [0x7E#8, 0x03#8, 0x58#8, 0x5E#8, 0x48#8, 0x69#8, 0x21#8]
      = .ok (.data 16#5 0x5E#8 [0x48#8, 0x69#8, 0x21#8]) ∧
      responseOf (exec (.fcEncode 16#8 5#8 [0x48#8, 0x69#8, 0x21#8]) State.reset)
        = some (.ok (.frame [0x7E#8, 0x03#8, 0x58#8, 0x5E#8, 0x48#8, 0x69#8, 0x21#8])) ∧
      responseOf (exec (.data 16#5 0x5E#8 [0x48#8, 0x69#8, 0x21#8]) State.reset)
        = some (.ok (.fields 16#5 5#4 3#7 0x5E#8 [0x48#8, 0x69#8, 0x21#8])) := by decide +kernel

theorem test_frame_textNameAck :
    decode standardConfig [0x7E#8, 0x85#8, 0x69#8, 0x5D#8, 0x61#8, 0x2E#8, 0x74#8, 0x78#8, 0x74#8]
      = .ok (.textNameAck 19#5 0x5D#8 [0x61#8, 0x2E#8, 0x74#8, 0x78#8, 0x74#8]) ∧
      responseOf (exec (.fcEncode 19#8 6#8 [0x61#8, 0x2E#8, 0x74#8, 0x78#8, 0x74#8]) State.reset)
        = some (.ok (.frame [0x7E#8, 0x85#8, 0x69#8, 0x5D#8, 0x61#8, 0x2E#8, 0x74#8, 0x78#8, 0x74#8])) ∧
      responseOf (exec (.textNameAck 19#5 0x5D#8 [0x61#8, 0x2E#8, 0x74#8, 0x78#8, 0x74#8]) State.reset)
        = some (.ok (.fields 19#5 6#4 5#7 0x5D#8 [0x61#8, 0x2E#8, 0x74#8, 0x78#8, 0x74#8])) := by decide +kernel

theorem test_frame_videoNameAck :
    decode standardConfig [0x7E#8, 0x05#8, 0x7B#8, 0x08#8, 0x76#8, 0x2E#8, 0x6D#8, 0x70#8, 0x34#8]
      = .ok (.videoNameAck 22#5 0x08#8 [0x76#8, 0x2E#8, 0x6D#8, 0x70#8, 0x34#8]) ∧
      responseOf (exec (.fcEncode 22#8 7#8 [0x76#8, 0x2E#8, 0x6D#8, 0x70#8, 0x34#8]) State.reset)
        = some (.ok (.frame [0x7E#8, 0x05#8, 0x7B#8, 0x08#8, 0x76#8, 0x2E#8, 0x6D#8, 0x70#8, 0x34#8])) ∧
      responseOf (exec (.videoNameAck 22#5 0x08#8 [0x76#8, 0x2E#8, 0x6D#8, 0x70#8, 0x34#8]) State.reset)
        = some (.ok (.fields 22#5 7#4 5#7 0x08#8 [0x76#8, 0x2E#8, 0x6D#8, 0x70#8, 0x34#8])) := by decide +kernel

theorem test_frame_imageNameAck :
    decode standardConfig [0x7E#8, 0x85#8, 0x8C#8, 0xBB#8, 0x69#8, 0x2E#8, 0x6A#8, 0x70#8, 0x67#8]
      = .ok (.imageNameAck 25#5 0xBB#8 [0x69#8, 0x2E#8, 0x6A#8, 0x70#8, 0x67#8]) ∧
      responseOf (exec (.fcEncode 25#8 8#8 [0x69#8, 0x2E#8, 0x6A#8, 0x70#8, 0x67#8]) State.reset)
        = some (.ok (.frame [0x7E#8, 0x85#8, 0x8C#8, 0xBB#8, 0x69#8, 0x2E#8, 0x6A#8, 0x70#8, 0x67#8])) ∧
      responseOf (exec (.imageNameAck 25#5 0xBB#8 [0x69#8, 0x2E#8, 0x6A#8, 0x70#8, 0x67#8]) State.reset)
        = some (.ok (.fields 25#5 8#4 5#7 0xBB#8 [0x69#8, 0x2E#8, 0x6A#8, 0x70#8, 0x67#8])) := by decide +kernel

theorem test_frame_endOfFile :
    decode standardConfig [0x7E#8, 0x00#8, 0x9E#8, 0x97#8] = .ok (.endOfFile 28#5 0x97#8 []) ∧
      responseOf (exec (.fcEncode 28#8 9#8 []) State.reset) = some (.ok (.frame [0x7E#8, 0x00#8, 0x9E#8, 0x97#8])) ∧
      responseOf (exec (.endOfFile 28#5 0x97#8 []) State.reset)
        = some (.ok (.fields 28#5 9#4 0#7 0x97#8 [])) := by decide +kernel

theorem test_frame_moveRight :
    decode standardConfig [0x7E#8, 0x80#8, 0xAF#8, 0xA5#8] = .ok (.moveRight 31#5 0xA5#8 []) ∧
      responseOf (exec (.fcEncode 31#8 10#8 []) State.reset) = some (.ok (.frame [0x7E#8, 0x80#8, 0xAF#8, 0xA5#8])) ∧
      responseOf (exec (.moveRight 31#5 0xA5#8 []) State.reset)
        = some (.ok (.fields 31#5 10#4 0#7 0xA5#8 [])) := by decide +kernel

theorem test_frame_moveUp :
    decode standardConfig [0x7E#8, 0x00#8, 0xB1#8, 0xBA#8] = .ok (.moveUp 2#5 0xBA#8 []) ∧
      responseOf (exec (.fcEncode 2#8 11#8 []) State.reset) = some (.ok (.frame [0x7E#8, 0x00#8, 0xB1#8, 0xBA#8])) ∧
      responseOf (exec (.moveUp 2#5 0xBA#8 []) State.reset)
        = some (.ok (.fields 2#5 11#4 0#7 0xBA#8 [])) := by decide +kernel

theorem test_frame_moveDown :
    decode standardConfig [0x7E#8, 0x80#8, 0xC2#8, 0xCE#8] = .ok (.moveDown 5#5 0xCE#8 []) ∧
      responseOf (exec (.fcEncode 5#8 12#8 []) State.reset) = some (.ok (.frame [0x7E#8, 0x80#8, 0xC2#8, 0xCE#8])) ∧
      responseOf (exec (.moveDown 5#5 0xCE#8 []) State.reset)
        = some (.ok (.fields 5#5 12#4 0#7 0xCE#8 [])) := by decide +kernel

theorem test_frame_moveLeft :
    decode standardConfig [0x7E#8, 0x00#8, 0xD4#8, 0xD9#8] = .ok (.moveLeft 8#5 0xD9#8 []) ∧
      responseOf (exec (.fcEncode 8#8 13#8 []) State.reset) = some (.ok (.frame [0x7E#8, 0x00#8, 0xD4#8, 0xD9#8])) ∧
      responseOf (exec (.moveLeft 8#5 0xD9#8 []) State.reset)
        = some (.ok (.fields 8#5 13#4 0#7 0xD9#8 [])) := by decide +kernel

theorem test_frame_mapUpdate :
    decode standardConfig [0x7E#8, 0x82#8, 0xE5#8, 0xE8#8, 0x01#8, 0x00#8]
      = .ok (.mapUpdate 11#5 0xE8#8 [0x01#8, 0x00#8]) ∧
      responseOf (exec (.fcEncode 11#8 14#8 [0x01#8, 0x00#8]) State.reset)
        = some (.ok (.frame [0x7E#8, 0x82#8, 0xE5#8, 0xE8#8, 0x01#8, 0x00#8])) ∧
      responseOf (exec (.mapUpdate 11#5 0xE8#8 [0x01#8, 0x00#8]) State.reset)
        = some (.ok (.fields 11#5 14#4 2#7 0xE8#8 [0x01#8, 0x00#8])) := by decide +kernel

theorem test_frame_error :
    decode standardConfig [0x7E#8, 0x01#8, 0xF7#8, 0xFB#8, 0x02#8] = .ok (.error 14#5 0xFB#8 [0x02#8]) ∧
      responseOf (exec (.fcEncode 14#8 15#8 [0x02#8]) State.reset)
        = some (.ok (.frame [0x7E#8, 0x01#8, 0xF7#8, 0xFB#8, 0x02#8])) ∧
      responseOf (exec (.error 14#5 0xFB#8 [0x02#8]) State.reset)
        = some (.ok (.fields 14#5 15#4 1#7 0xFB#8 [0x02#8])) := by decide +kernel

/-! ### The codec: vectors of 95_test_vectors.md sections 2.1 and 2.2 -/

/-- V8 under MSB_FIRST, and V17. -/
theorem test_fcEncode_orders :
    responseOf (exec (.fcEncode 5#8 5#8 [0x48#8, 0x69#8, 0x21#8]) msbUnit)
        = some (.ok (.frame [0x7E#8, 0x07#8, 0x25#8, 0x23#8, 0x48#8, 0x69#8, 0x21#8])) ∧
      responseOf (exec (.fcEncode 4#8 5#8 [0x48#8, 0x69#8, 0x21#8]) State.reset)
        = some (.ok (.frame [0x7E#8, 0x03#8, 0x52#8, 0x54#8, 0x48#8, 0x69#8, 0x21#8])) := by decide +kernel

/-- E1, E2, E3. -/
theorem test_fcEncode_refuses :
    responseOf (exec (.fcEncode 32#8 0#8 []) client) = some (.failed .invalidArgument) ∧
      responseOf (exec (.fcEncode 0#8 16#8 []) client) = some (.failed .invalidArgument) ∧
      responseOf (exec (.fcEncode 0#8 5#8 (zeros 128)) client) = some (.failed .invalidArgument) := by decide +kernel

/-- E5, E7; and type 15, seq 5 of section 2.2's last line for both orders. -/
theorem test_fcCksum :
    responseOf (exec (.fcCksum 32#8 0#8 []) client) = some (.failed .invalidArgument) ∧
      responseOf (exec (.fcCksum 3#8 6#8 [0x61#8, 0x2E#8, 0x74#8, 0x78#8, 0x74#8]) client)
        = some (.ok (.checksum 0x55#8)) ∧
      responseOf (exec (.fcCksum 5#8 15#8 []) client) = some (.ok (.checksum 0xFD#8)) ∧
      responseOf (exec (.fcCksum 5#8 15#8 []) msbUnit) = some (.ok (.checksum 0x20#8)) := by decide +kernel

/-- X0, X1, X2, X3, X4, X5, X6. -/
theorem test_fcDecode :
    responseOf (exec (.fcDecode [0x7E#8, 0x83#8, 0x52#8, 0x54#8, 0x48#8, 0x69#8, 0x21#8]) client)
        = some (.ok (.fields 5#5 5#4 3#7 0x54#8 [0x48#8, 0x69#8, 0x21#8])) ∧
      responseOf (exec (.fcDecode []) client) = some (.failed .truncated) ∧
      responseOf (exec (.fcDecode [0x7E#8, 0x83#8, 0x52#8]) client) = some (.failed .truncated) ∧
      responseOf (exec (.fcDecode [0x7F#8, 0x83#8, 0x52#8, 0x54#8, 0x48#8, 0x69#8, 0x21#8]) client)
        = some (.failed .badMarker) ∧
      responseOf (exec (.fcDecode [0x7E#8, 0x83#8, 0x52#8, 0x54#8, 0x48#8, 0x69#8]) client)
        = some (.failed .truncated) ∧
      responseOf (exec (.fcDecode [0x7E#8, 0x83#8, 0x52#8, 0x54#8, 0x48#8, 0x69#8, 0x21#8, 0x00#8]) client)
        = some (.failed .truncated) ∧
      responseOf (exec (.fcDecode [0x7E#8, 0x83#8, 0x52#8, 0x54#8, 0x48#8, 0x49#8, 0x21#8]) client)
        = some (.failed .checksumMismatch) := by decide +kernel

/-- X12, X14, X16; M3, M6 under MSB_FIRST. -/
theorem test_fcDecode_more :
    responseOf (exec (.fcDecode [0x7E#8, 0x83#8, 0x53#8, 0x54#8, 0x48#8, 0x69#8, 0x21#8]) client)
        = some (.failed .checksumMismatch) ∧
      responseOf (exec (.fcDecode [0x7F#8, 0x83#8, 0x52#8, 0x54#8, 0x48#8]) client) = some (.failed .badMarker) ∧
      responseOf (exec (.fcDecode [0x00#8, 0x00#8, 0x00#8, 0x00#8]) client) = some (.failed .badMarker) ∧
      responseOf (exec (.fcDecode [0x7E#8, 0x07#8, 0x2A#8, 0x23#8, 0x48#8, 0x69#8, 0x21#8]) msbUnit)
        = some (.ok (.fields 5#5 10#4 3#7 0x23#8 [0x48#8, 0x69#8, 0x21#8])) ∧
      responseOf (exec (.fcDecode [0x7E#8, 0x83#8, 0x52#8, 0x54#8, 0x48#8, 0x69#8, 0x21#8]) msbUnit)
        = some (.failed .truncated) := by decide +kernel

/-! ### The header builder and parser: sections 2.4 to 2.6 -/

/-- I1 and I5. -/
theorem test_ipck :
    ipck (ipHeaderZero standardConfig 4 0xC0A8000A#32 0xC0A80014#32) = 0xF95E#16 ∧
      ipck ([0x45#8, 0xFF#8, 0x00#8, 0x20#8, 0xFF#8, 0xFF#8, 0xFF#8, 0xFF#8, 0xFF#8, 0x11#8]
        ++ [0x00#8, 0x00#8, 0xFF#8, 0xFF#8, 0xFF#8, 0xFE#8, 0xFF#8, 0xFF#8, 0xFF#8, 0xFD#8]) = 0xBAD1#16 := by decide +kernel

/-- Q1 and Q3. -/
theorem test_ltBuild :
    responseOf (exec (.ltBuild [0x7E#8, 0x00#8, 0x30#8, 0x33#8]) client) = some (.ok (.packet packetQ1)) ∧
      responseOf (exec (.ltBuild [0x7E#8, 0x83#8, 0x52#8, 0x54#8, 0x48#8, 0x69#8, 0x21#8]) clientKnowing)
        = some (.ok (.packet packetQ3)) := by decide +kernel

/-- The longest frame, 131 bytes: a packet of 173 (41_link_headers.md R98). -/
theorem test_ltBuild_longest :
    after (exec (.ltBuild (zeros 131)) client) (fun t =>
      match t.response with
      | some (.ok (.packet P)) => P.length == 173 && P.drop 42 == zeros 131
      | _ => false) = true := by decide +kernel

/-- Q6, Q8, Q9, Q11. -/
theorem test_ltBuild_refuses :
    responseOf (exec (.ltBuild (zeros 132)) clientKnowing) = some (.failed .invalidArgument) ∧
      responseOf (exec (.ltBuild [0x7E#8, 0x00#8, 0x00#8, 0x00#8]) State.reset) = some (.failed .notConfigured) ∧
      responseOf (exec (.ltBuild [0x7E#8, 0x00#8, 0x00#8, 0x00#8]) server) = some (.failed .notConfigured) ∧
      responseOf (exec (.ltBuild (zeros 132)) State.reset) = some (.failed .notConfigured) := by decide +kernel

/-- K9: Q1 padded to 60 bytes is accepted, its padding not in the frame, and the peer is learned. -/
theorem test_ltParse_accepts :
    after (exec (.ltParse (packetQ1 ++ zeros 14)) server)
      (fun t => decide (t.response
        = some (.ok (.parsed [0x7E#8, 0x00#8, 0x30#8, 0x33#8] 0x020000000001#48 0xC0A8000A#32 5000#16)) ∧ t.peerMac = 0x020000000001#48 ∧ t.peerIp = 0xC0A8000A#32 ∧ t.peerPort = 5000#16 ∧ t.status = 0b111#3)) := by decide +kernel

/-- K2, K5, K7, K8 and K15. -/
theorem test_ltParse_discards :
    responseOf (exec (.ltParse (memWrite packetQ3 23 [0x06#8])) server) = some (.failed .discard) ∧
      responseOf (exec (.ltParse (packetQ3.take 41)) server) = some (.failed .discard) ∧
      responseOf (exec (.ltParse (memWrite packetQ3 38 [0x00#8, 0x07#8])) server) = some (.failed .discard) ∧
      responseOf (exec (.ltParse (memWrite packetQ3 38 [0x00#8, 0x10#8])) server) = some (.failed .discard) ∧
      responseOf (exec (.ltParse packetQ3) State.reset) = some (.failed .notConfigured) := by decide +kernel

/-! ### Setup, read-back, reset: section 2.7 -/

/-- Step 8 and its registers. -/
theorem test_ltSetup :
    after (exec (.ltSetup 0x020000000001#48 0xC0A8000A#32 5000#16) State.reset)
      (fun t => decide (t.localMac = 0x020000000001#48
        ∧ t.localIp = 0xC0A8000A#32 ∧ t.localPort = 0x1388#16 ∧ t.status = 0b001#3)) := by decide +kernel

/-- Step 5: from STATUS = 0b100 to 0b010. -/
theorem test_ltSetdest :
    after (exec (.ltSetdest 0xC0A80014#32 6000#16) { State.reset with status := 0b100#3 })
      (fun t => decide (t.peerIp = 0xC0A80014#32 ∧ t.peerPort = 0x1770#16 ∧ t.status = 0b010#3)) := by decide +kernel

/-- Steps 4 and 11. -/
theorem test_ltSetpeermac :
    after (exec (.ltSetpeermac true 0x020000000002#48) State.reset)
      (fun t => decide (t.peerMac = 0x020000000002#48 ∧ t.status = 0b100#3)) ∧
    after (exec (.ltSetpeermac false 0x111111111111#48) clientKnowing)
      (fun t => decide (t.peerMac = 0x020000000002#48 ∧ t.status = 0b011#3)) := by decide +kernel

/-- Steps 1, 2, 3 and 10. -/
theorem test_ltRd :
    responseOf (exec (.ltRd 6#3) State.reset) = some (.ok (.register 0#48)) ∧
      responseOf (exec (.ltRd 0#3) State.reset) = some (.failed .notConfigured) ∧
      responseOf (exec (.ltRd 7#3) State.reset) = some (.failed .invalidArgument) ∧
      responseOf (exec (.ltRd 4#3) clientKnowing) = some (.ok (.register 0x0000C0A80014#48)) ∧
      responseOf (exec (.ltRd 5#3) clientKnowing) = some (.ok (.register 0x1770#48)) ∧
      responseOf (exec (.ltRd 6#3) clientKnowing) = some (.ok (.register 7#48)) := by decide +kernel

/-- 42_config_ops.md R124 where its cases meet: registers 2, 3, 4, 5 and 6 with only the local registers valid. -/
theorem test_ltRd_boundaries :
    responseOf (exec (.ltRd 2#3) server) = some (.ok (.register 0x1770#48)) ∧
      responseOf (exec (.ltRd 3#3) server) = some (.failed .notConfigured) ∧
      responseOf (exec (.ltRd 4#3) server) = some (.failed .notConfigured) ∧
      responseOf (exec (.ltRd 5#3) server) = some (.failed .notConfigured) ∧
      responseOf (exec (.ltRd 6#3) server) = some (.ok (.register 1#48)) := by decide +kernel

/-- Step 13. -/
theorem test_ltReset :
    after (exec .ltReset clientKnowing)
      (fun t => decide (t.status = 0b000#3 ∧ t.localMac = clientKnowing.localMac ∧ t.response
        = some (.ok .none))) := by decide +kernel

/-- Section 2.8, on the reserved codes with operands. -/
theorem test_reserved :
    ∀ op ∈ [Instr.reserved0, .reserved6, .reserved7, .reservedC, .reservedD, .reservedE],
      responseOf (exec (op [0x01#8]) client) = some (.failed .illegalOp) := by decide +kernel

/-- LT.SEND 0, START, [] in the client's state gives Q1 (42_config_ops.md R128). -/
theorem test_ltSend : responseOf (ltSend 0#8 3#8 [] client) = some (.ok (.packet packetQ1)) := by decide +kernel

/-- LT.RECV of the padded Q1 in the server's state (42_config_ops.md R129). -/
theorem test_ltRecv :
    responseOf (ltRecv (packetQ1 ++ zeros 14) server).1 = some (.ok (.fields 0#5 3#4 0#7 0x33#8 [])) ∧
      (ltRecv (packetQ1 ++ zeros 14) server).2 = some ⟨0x020000000001#48, 0xC0A8000A#32, 5000#16⟩ := by decide +kernel

/-! ### The table's words and the step -/

/-- The words of six rows of spec/opcode_table.json, all other bits zero. -/
theorem test_decodeTableWord :
    decodeTableWord 8 0x1 = some (.fcEncode 0#8 0#8 []) ∧ decodeTableWord 8 0x0 = some (.reserved0 []) ∧
      decodeTableWord 8 0x8 = some (.ltSetup 0#48 0#32 0#16) ∧ decodeTableWord 8 0xF = some .ltReset ∧
      decodeTableWord 32 0x7E000000 = some (.ack 0#5 0x00#8 []) ∧
      decodeTableWord 32 0x7E02F0AB = some (.error 0#5 0xAB#8 [0x00#8, 0x00#8]) := by decide +kernel

/-- The first step after reset runs the placed instruction. -/
theorem test_step_runs_table_words :
    responseOf (step (State.reset.withFetchWord 8 0xB)) = some (.failed .notConfigured) ∧
      responseOf (step (State.reset.withFetchWord 8 0x6)) = some (.failed .illegalOp) ∧
      responseOf (step (State.reset.withFetchWord 32 0x7E000000))
        = some (.ok (.fields 0#5 0#4 0#7 0x00#8 [])) := by decide +kernel

/-! ### Witnesses: a concrete state and operands that meet the hypotheses of each obligation that has some -/

theorem witness_StepRunsDecodedInstruction :
    (issuing [0x0F#8]).host = .issue [0x0F#8] :: [] ∧ decode (issuing [0x0F#8]).cfg [0x0F#8] = .ok .ltReset := by decide +kernel

theorem witness_IdleStepKeepsEverything : State.reset.host = [] := by decide +kernel

theorem witness_PortStopsByName :
    (offer (.overlap [0x0F#8] [0x0F#8]) State.reset).host = .overlap [0x0F#8] [0x0F#8] :: [] ∧
      (issuing [0x0F#8, 0x00#8]).host = .issue [0x0F#8, 0x00#8] :: [] ∧
      decode (issuing [0x0F#8, 0x00#8]).cfg [0x0F#8, 0x00#8] = .error .trailingBytes ∧
      15 < (0x10#8).toNat ∧ 0x10#8 ≠ 0x7E#8 := by decide +kernel

theorem witness_ReservedCodeBeforeOperands :
    0x0E#8 ∈ [0x00#8, 0x06#8, 0x07#8, 0x0C#8, 0x0D#8, 0x0E#8] ∧
      (issuing [0x0E#8, 0xFF#8]).host = .issue (0x0E#8 :: [0xFF#8]) :: [] := by decide +kernel

/-- Boundary values: the longest payload, the longest frame. -/
theorem witness_DecodeOfEncode :
    (Instr.fcEncode 255#8 255#8 (zeros 255)).wellFormed standardConfig = true ∧
      (Instr.data 31#5 0xFF#8 (zeros 127)).wellFormed standardConfig = true ∧
      (Instr.fcDecode (zeros 8)).wellFormed { standardConfig with rxMax := 8#16 } = true := by decide +kernel

theorem witness_DecodedRecordIsCanonical : decode standardConfig [0x0B#8, 0x07#8]
  = .ok (.ltRd 7#3) := by decide +kernel

theorem witness_StatusIsThreeValidBits :
    localValid 0b101#3 = localValid 0b101#3 ∧ peerValid 0b101#3 = peerValid 0b101#3 ∧
      peerMacValid 0b101#3 = peerMacValid 0b101#3 := by decide +kernel

/-- Clause (b), clause (c) at X8's neighbour 132 bytes, and clauses (c) to (e). -/
theorem witness_FcDecodeCorners :
    131 < (zeros 132).length ∧
      exec (.fcDecode [0x7E#8, 0x00#8, 0x00#8, 0x00#8]) client
        = .next (answered (.ok (.fields 0#5 0#4 0#7 0x00#8 [])) client) ∧ zeros 1 ≠ [] :=
  ⟨by decide +kernel, rfl, by decide +kernel⟩

/-- Both clauses at the bounds: seq 31, type 15, 127 payload bytes; and a string that decodes. -/
theorem witness_FrameRoundTrip :
    State.reset.cfg.frameBitOrder = client.cfg.frameBitOrder ∧ (31#8).toNat ≤ 31 ∧ (15#8).toNat ≤ 15 ∧
      (zeros 127).length ≤ 127 ∧
      exec (.fcDecode [0x7E#8, 0x80#8, 0xAF#8, 0xA5#8]) client
        = .next (answered (.ok (.fields 31#5 10#4 0#7 0xA5#8 [])) client) :=
  ⟨by decide +kernel, by decide +kernel, by decide +kernel, by decide +kernel, rfl⟩

theorem witness_FcEncodeIsInjective :
    State.reset.cfg.frameBitOrder = client.cfg.frameBitOrder ∧
      exec (.fcEncode 31#8 10#8 []) client
        = .next (answered (.ok (.frame [0x7E#8, 0x80#8, 0xAF#8, 0xA5#8])) client) :=
  ⟨by decide +kernel, rfl⟩

/-- Clauses (a), (b) and (d). -/
theorem witness_ChecksumDetectsAndMisses :
    0x69#8 ≠ 0x49#8 ∧ List.Perm [0x48#8, 0x69#8] [0x69#8, 0x48#8] ∧
      exec (.fcDecode ([0x7E#8, 0x80#8, 0xAF#8, 0xA5#8] ++ [])) client
        = .next (answered (.ok (.fields 31#5 10#4 0#7 0xA5#8 [])) client) :=
  ⟨by decide +kernel, by decide +kernel, rfl⟩

theorem witness_DamagedFramesAtTheDecoder :
    [0x7E#8, 0x83#8, 0x52#8, 0x54#8].length = 4 ∧
      exec (.fcDecode ([0x7E#8, 0x83#8, 0x52#8, 0x54#8] ++ [0x48#8, 0x69#8, 0x21#8])) client
        = .next (answered (.ok (.fields 5#5 5#4 3#7 0x54#8 [0x48#8, 0x69#8, 0x21#8])) client) ∧
      [0x48#8, 0x69#8, 0x21#8] = [0x48#8] ++ 0x69#8 :: [0x21#8] ∧ 0x69#8 ≠ 0x49#8 ∧
      List.Perm [0x48#8, 0x69#8, 0x21#8] [0x69#8, 0x48#8, 0x21#8] :=
  ⟨rfl, rfl, rfl, by decide +kernel, by decide +kernel⟩

theorem witness_LengthMismatchNeverReturned :
    exec .ltReset client = .next (answered (.ok .none) (clearStatus client)) := rfl

theorem witness_FrameRowsAreDecoded :
    ∀ row ∈ [(Instr.ack, 0#4), (Instr.error, 15#4)],
      row ∈ [(Instr.ack, 0#4), (Instr.nack, 1#4), (Instr.okAck, 2#4), (Instr.start, 3#4), (Instr.size, 4#4),
        (Instr.data, 5#4), (Instr.textNameAck, 6#4), (Instr.videoNameAck, 7#4), (Instr.imageNameAck, 8#4),
        (Instr.endOfFile, 9#4), (Instr.moveRight, 10#4), (Instr.moveUp, 11#4), (Instr.moveDown, 12#4),
        (Instr.moveLeft, 13#4), (Instr.mapUpdate, 14#4), (Instr.error, 15#4)] := by
  simp

/-- Both clauses: the greatest sequence number; the reset state, whose error codes are distinct, and a frame. -/
theorem witness_ErrorCodeTravelsAsPayload :
    (31#8).toNat ≤ 31 ∧ errorCodesDistinct State.reset.cfg = true ∧
      ∃ F, exec (.fcEncode 31#8 15#8 (errorPayload State.reset.cfg .forbiddenMove)) State.reset
        = .next (answered (.ok (.frame F)) State.reset) :=
  ⟨by decide, errorCodesDistinct_standardConfig, _, rfl⟩

theorem witness_IpckIsTheInternetChecksum :
    (ipHeaderZero standardConfig 4 0xC0A8000A#32 0xC0A80014#32).length = 20 := rfl

theorem witness_BuiltHeaderSumsToAllOnes : 131 ≤ 131 := le_rfl

theorem witness_BuiltPacketFields :
    localValid client.status = true ∧ peerValid client.status = true ∧ (zeros 131).length ≤ 131 := by decide +kernel

/-- The fall-back with the link address known and unknown. -/
theorem witness_BroadcastWhenPeerMacUnknown :
    exec (.ltBuild [0x7E#8, 0x00#8, 0x30#8, 0x33#8]) client = .next (answered (.ok (.packet packetQ1)) client) ∧
      peerMacValid client.status = false ∧
      exec (.ltBuild [0x7E#8, 0x83#8, 0x52#8, 0x54#8, 0x48#8, 0x69#8, 0x21#8]) clientKnowing
        = .next (answered (.ok (.packet packetQ3)) clientKnowing) ∧ peerMacValid clientKnowing.status = true :=
  ⟨rfl, by decide +kernel, rfl, by decide +kernel⟩

/-- All three clauses: not configured, a discarded packet (41 bytes), an accepted one with the least UDP length. -/
theorem witness_LtParseResult :
    localValid State.reset.status = false ∧ localValid server.status = true ∧ ¬ 42 ≤ (packetQ3.take 41).length ∧
      accepts server (memWrite (packetQ3.take 42) 38 [0x00#8, 0x08#8]) = true := by decide +kernel

theorem witness_UntestedHeaderBytesNeverDiscard :
    packetQ3.length = (memWrite packetQ3 24 [0x00#8, 0x00#8]).length ∧
      ∀ k ∈ [12, 13, 23, 30, 31, 32, 33, 36, 37, 38, 39],
        byteAt packetQ3 k = byteAt (memWrite packetQ3 24 [0x00#8, 0x00#8]) k := by decide +kernel

/-- Q1 at the server: the hypotheses of the three obligations about an accepted packet. -/
theorem witness_accepted_packet :
    exec (.ltParse packetQ1) server = .next (answered
        (.ok (.parsed [0x7E#8, 0x00#8, 0x30#8, 0x33#8] 0x020000000001#48 0xC0A8000A#32 5000#16))
        (learnPeer packetQ1 server)) ∧
      (answered (.ok (.parsed [0x7E#8, 0x00#8, 0x30#8, 0x33#8] 0x020000000001#48 0xC0A8000A#32 5000#16))
        (learnPeer packetQ1 server)).response
        = some (.ok (.parsed [0x7E#8, 0x00#8, 0x30#8, 0x33#8] 0x020000000001#48 0xC0A8000A#32 5000#16)) ∧
      (zeros 131).length ≤ 131 :=
  ⟨by rw [exec_ltParse, if_pos (by decide +kernel), if_pos (by decide +kernel)]
      exact congrArg Host.Outcome.next (answered_eq_answered.mpr (by decide +kernel)), rfl, by decide +kernel⟩

/-- For TrailingBytesAreIgnored. -/
theorem witness_TrailingBytesAreIgnored :
    ∃ t, exec (.ltParse packetQ1) server = .next (answered
      (.ok (.parsed [0x7E#8, 0x00#8, 0x30#8, 0x33#8] 0x020000000001#48 0xC0A8000A#32 5000#16)) t) :=
  ⟨_, witness_accepted_packet.1⟩

/-- For NextBuildAddressesTheSender. -/
theorem witness_NextBuildAddressesTheSender :
    ∃ t, exec (.ltParse packetQ1) server = .next t ∧
      t.response = some (.ok (.parsed [0x7E#8, 0x00#8, 0x30#8, 0x33#8] 0x020000000001#48 0xC0A8000A#32 5000#16)) ∧
      (zeros 131).length ≤ 131 :=
  ⟨_, witness_accepted_packet⟩

theorem witness_BuildThenParse :
    exec (.ltBuild [0x7E#8, 0x00#8, 0x30#8, 0x33#8]) client = .next (answered (.ok (.packet packetQ1)) client) ∧
      localValid server.status = true ∧ server.localIp = client.peerIp ∧ server.localPort = client.peerPort ∧
      server.cfg.ethertypeIpv4 = client.cfg.ethertypeIpv4 ∧ (zeros 131).length ≤ 131 :=
  ⟨rfl, by decide +kernel, by decide +kernel, by decide +kernel, by decide +kernel, by decide +kernel⟩

/-- Each clause has its own operation; the values are at their extremes (42_config_ops.md R123). -/
theorem witness_StoredValuesReadBack :
    (∃ t, exec (.ltSetup 0xFFFFFFFFFFFF#48 0#32 0#16) State.reset = .next t) ∧
      (∃ t, exec (.ltSetdest 0xFFFFFFFF#32 0xFFFF#16) State.reset = .next t) ∧
      (∃ t, exec (.ltSetpeermac true 0#48) State.reset = .next t) :=
  ⟨⟨_, rfl⟩, ⟨_, rfl⟩, ⟨_, rfl⟩⟩

theorem witness_SetdestForgetsTheLinkAddress :
    (∃ t, exec (.ltSetdest 0#32 0#16) clientKnowing = .next t) ∧ localValid clientKnowing.status = true ∧
      (zeros 131).length ≤ 131 :=
  ⟨⟨_, rfl⟩, by decide +kernel, by decide +kernel⟩

theorem witness_LtResetTearsDown :
    (∃ t, exec .ltReset client = .next t) ∧ State.reset.status = 0b000#3 := ⟨⟨_, rfl⟩, rfl⟩

theorem witness_ReservedCodesAreIllegal :
    Instr.reservedE ∈ [Instr.reserved0, Instr.reserved6, Instr.reserved7, Instr.reservedC, Instr.reservedD,
      Instr.reservedE] := by simp

theorem witness_ResetLeavesRegistersUnobservable : State.reset.status = 0b000#3 ∧ (5#3).toNat ≤ 5 := by decide +kernel

theorem witness_UnitComesUpInOrder :
    State.reset.status = 0b000#3 ∧ (∃ t u, exec (.ltSetup 1#48 2#32 3#16) State.reset = .next t ∧
      exec (.ltSetdest 4#32 5#16) t = .next u) ∧ (zeros 131).length ≤ 131 :=
  ⟨rfl, ⟨_, _, rfl, rfl⟩, by decide +kernel⟩

/-- A failed parse and an accepted one, for LtRecvComposes. -/
theorem witness_LtRecvComposes :
    exec (.ltParse []) server = .next (answered (.failed .discard) server) ∧
      ∃ t, exec (.ltParse packetQ1) server = .next t ∧
        t.response = some (.ok (.parsed [0x7E#8, 0x00#8, 0x30#8, 0x33#8] 0x020000000001#48 0xC0A8000A#32 5000#16)) :=
  ⟨rfl, _, witness_accepted_packet.1, witness_accepted_packet.2.1⟩

theorem witness_OnlyOkWritesRegisters :
    exec (.ltRd 7#3) client = .next (answered (.failed .invalidArgument) client) ∧
      (answered (.failed .invalidArgument) client).response = some (.failed .invalidArgument) := ⟨rfl, rfl⟩

/-- Each register's change, by an operation that is one of its writers. -/
theorem witness_RegistersHaveTheirWriters :
    (∃ t, exec (.ltSetup 1#48 2#32 3#16) State.reset = .next t ∧ t.localMac ≠ State.reset.localMac ∧
      localValid t.status ≠ localValid State.reset.status) ∧
    (∃ t, exec (.ltSetpeermac true 1#48) State.reset = .next t ∧ t.peerMac ≠ State.reset.peerMac ∧
      peerMacValid t.status ≠ peerMacValid State.reset.status) ∧
    (∃ t, exec (.ltSetdest 1#32 2#16) State.reset = .next t ∧ t.peerIp ≠ State.reset.peerIp ∧
      peerValid t.status ≠ peerValid State.reset.status) :=
  ⟨⟨_, rfl, by decide +kernel, by decide +kernel⟩, ⟨_, rfl, by decide +kernel, by decide +kernel⟩, ⟨_, rfl, by decide +kernel, by decide +kernel⟩⟩

theorem witness_StepsKeepTheParameters : step State.reset = .next State.reset := rfl

theorem witness_StepsKeepResponsesWellFormed :
    wellFormedState (issuing [0x0F#8]) = true ∧ ∃ t, step (issuing [0x0F#8]) = .next t :=
  ⟨by rw [wellFormedState, Bool.and_eq_true]; exact ⟨errorCodesDistinct_standardConfig, rfl⟩, _, rfl⟩

/-- Two states that differ in a register whose valid bit is 0. -/
theorem witness_InvalidRegistersAreNeverObserved :
    SameView client { client with peerMac := 0xABCDEF#48, freeCount := 7 } ∧
      client ≠ { client with peerMac := 0xABCDEF#48, freeCount := 7 } :=
  ⟨⟨rfl, rfl, rfl, rfl, fun _ => ⟨rfl, rfl, rfl⟩, fun _ => ⟨rfl, rfl⟩, fun h => absurd h (by decide)⟩,
    fun h => absurd (congrArg State.freeCount h) (by decide)⟩

/-- Two states that differ in what was answered before. -/
theorem witness_EqualCommandsEqualResponses :
    SameRegisters client (answered (.ok .none) client) ∧ ∃ t, exec (.ltRd 1#3) client = .next t :=
  ⟨⟨rfl, rfl, rfl, rfl, rfl, rfl, rfl, rfl⟩, _, rfl⟩

end Sys2Proof.Tests
end

section
/-! Every instruction answers (00_scope.md R6), with a response that 30_encoding.md R60 lists for it. -/

namespace Sys2Proof.Proofs.Answers

open Machine Safety

/-- Executing the instruction ends in a next state, at whose port stands a response its format lists. -/
def AnswersListed (i : Instr) (s : State) : Prop :=
  ∃ t r, exec i s = .next t ∧ t.response = some r ∧ listedResponse i r = true

/-- It is enough that the instruction ends in `answered`, whatever registers it wrote, with a listed response. -/
theorem answersListed_of_exec_eq {i : Instr} {s u : State} {r : Response} (h : exec i s = .next (answered r u))
    (hr : listedResponse i r = true) : AnswersListed i s :=
  ⟨_, _, h, answered_response r u, hr⟩

/-- What the unmarshaller answers, R60 lists for FC.DECODE. -/
theorem listedResponse_fcDecode_unmarshal (B F : Bytes) (o : FrameBitOrder) :
    listedResponse (.fcDecode B) (unmarshal o F) = true := by
  obtain h | h | h | ⟨seq, ty, len, ck, payload, -, h⟩ := unmarshal_cases o F <;> rw [h] <;> rfl

/-- For a frame row of any type the responses listed are FC.DECODE's (log 6). -/
theorem listedResponse_frameInstr (t : MessageType) (seq : BitVec 5) (ck : Byte) (payload B : Bytes) (r : Response) :
    listedResponse (frameInstr t seq ck payload) r = listedResponse (.fcDecode B) r := by
  cases r with
  | ok v => cases v <;> cases t <;> rfl
  | failed f => cases f <;> cases t <;> rfl

theorem answersListed_frameInstr (t : MessageType) (seq : BitVec 5) (ck : Byte) (payload : Bytes) (s : State) :
    AnswersListed (frameInstr t seq ck payload) s :=
  answersListed_of_exec_eq (exec_frameInstr t seq ck payload s)
    ((listedResponse_frameInstr t seq ck payload [] _).trans (listedResponse_fcDecode_unmarshal ..))

theorem answersListed_fcDecode (B : Bytes) (s : State) : AnswersListed (.fcDecode B) s :=
  answersListed_of_exec_eq (exec_fcDecode s B) (listedResponse_fcDecode_unmarshal ..)

theorem answersListed_fcEncode (seq ty : BitVec 8) (payload : Bytes) (s : State) :
    AnswersListed (.fcEncode seq ty payload) s :=
  answersListed_of_exec_eq (exec_fcEncode s seq ty payload) (by split <;> rfl)

theorem answersListed_fcCksum (seq ty : BitVec 8) (payload : Bytes) (s : State) :
    AnswersListed (.fcCksum seq ty payload) s :=
  answersListed_of_exec_eq (exec_fcCksum s seq ty payload) (by split <;> rfl)

theorem answersListed_ltBuild (F : Bytes) (s : State) : AnswersListed (.ltBuild F) s :=
  answersListed_of_exec_eq (exec_ltBuild s F) (by split_ifs <;> rfl)

theorem answersListed_ltRd (r : BitVec 3) (s : State) : AnswersListed (.ltRd r) s :=
  answersListed_of_exec_eq (exec_ltRd s r) (by split_ifs <;> rfl)

/-- LT.PARSE's three ends: only the accepted packet's writes registers before it answers. -/
theorem answersListed_ltParse (P : Bytes) (s : State) : AnswersListed (.ltParse P) s := by
  have h := exec_ltParse s P
  split_ifs at h with hv ha
  · exact answersListed_of_exec_eq h rfl
  · exact answersListed_of_exec_eq h rfl
  · exact answersListed_of_exec_eq h rfl

theorem answersListed_ltSetpeermac (valid : Bool) (mac : Mac) (s : State) :
    AnswersListed (.ltSetpeermac valid mac) s := by
  cases valid with
  | true => exact answersListed_of_exec_eq (u := writePeerMac mac s) rfl rfl
  | false => exact answersListed_of_exec_eq (u := forgetPeerMac s) rfl rfl

/-- Settles O45: instruction by instruction, the sixteen frame rows as `frameInstr` of their types. -/
theorem everyInstructionAnswers : Obligations.EveryInstructionAnswers := by
  intro i s
  cases i with
  | fcEncode seq ty payload => exact answersListed_fcEncode seq ty payload s
  | fcDecode B => exact answersListed_fcDecode B s
  | fcCksum seq ty payload => exact answersListed_fcCksum seq ty payload s
  | ltBuild F => exact answersListed_ltBuild F s
  | ltParse P => exact answersListed_ltParse P s
  | ltSetup mac ip port => exact answersListed_of_exec_eq (u := writeLocal mac ip port s) rfl rfl
  | ltSetdest ip port => exact answersListed_of_exec_eq (u := forgetPeerMac (writePeer ip port s)) rfl rfl
  | ltSetpeermac valid mac => exact answersListed_ltSetpeermac valid mac s
  | ltRd r => exact answersListed_ltRd r s
  | ltReset => exact answersListed_of_exec_eq (u := clearStatus s) rfl rfl
  | reserved0 _ | reserved6 _ | reserved7 _ | reservedC _ | reservedD _ | reservedE _ =>
    exact answersListed_of_exec_eq (u := s) (r := .failed .illegalOp) rfl rfl
  | ack seq ck payload => exact answersListed_frameInstr .ack seq ck payload s
  | nack seq ck payload => exact answersListed_frameInstr .nack seq ck payload s
  | okAck seq ck payload => exact answersListed_frameInstr .okAck seq ck payload s
  | start seq ck payload => exact answersListed_frameInstr .start seq ck payload s
  | size seq ck payload => exact answersListed_frameInstr .size seq ck payload s
  | data seq ck payload => exact answersListed_frameInstr .data seq ck payload s
  | textNameAck seq ck payload => exact answersListed_frameInstr .textNameAck seq ck payload s
  | videoNameAck seq ck payload => exact answersListed_frameInstr .videoNameAck seq ck payload s
  | imageNameAck seq ck payload => exact answersListed_frameInstr .imageNameAck seq ck payload s
  | endOfFile seq ck payload => exact answersListed_frameInstr .endOfFile seq ck payload s
  | moveRight seq ck payload => exact answersListed_frameInstr .moveRight seq ck payload s
  | moveUp seq ck payload => exact answersListed_frameInstr .moveUp seq ck payload s
  | moveDown seq ck payload => exact answersListed_frameInstr .moveDown seq ck payload s
  | moveLeft seq ck payload => exact answersListed_frameInstr .moveLeft seq ck payload s
  | mapUpdate seq ck payload => exact answersListed_frameInstr .mapUpdate seq ck payload s
  | error seq ck payload => exact answersListed_frameInstr .error seq ck payload s

end Sys2Proof.Proofs.Answers
end

section
/-! One step for each thing the host may do next (00_scope.md R4; the port is log 4). -/

namespace Sys2Proof.Proofs.StepByEvent

open Machine

variable {s t : State} {record first second : Bytes} {rest : List HostEvent}

theorem step_of_host_nil (h : s.host = []) : step s = .next s := by
  simp [step, h]

theorem step_of_host_issue_ok {i : Instr} (h : s.host = .issue record :: rest) (hd : decode s.cfg record = .ok i) :
    step s = exec i (takeEvent s) := by
  simp [step, fetch, h, hd]

theorem step_of_host_issue_error {e : DecodeError} (h : s.host = .issue record :: rest)
    (hd : decode s.cfg record = .error e) : step s = .refused (.malformedRecord e) := by
  simp [step, fetch, h, hd]

theorem step_of_host_reset (h : s.host = .reset :: rest) : step s = .next (hardwareReset (takeEvent s)) := by
  simp [step, fetch, h]

theorem step_of_host_resetDuring (h : s.host = .resetDuring record :: rest) :
    step s = .next (hardwareReset (takeEvent s)) := by
  simp [step, fetch, h]

theorem step_of_host_overlap (h : s.host = .overlap first second :: rest) :
    step s = .fault .commandBeforeResponse := by
  simp [step, fetch, h]

/-- A step that does not stop was idle, ran the instruction of the oldest record, or was a reset. -/
theorem step_next_cases (h : step s = .next t) :
    (s.host = [] ∧ t = s) ∨
      (∃ record rest i, s.host = .issue record :: rest ∧ decode s.cfg record = .ok i ∧
        exec i (takeEvent s) = .next t) ∨
      ((∃ rest, s.host = .reset :: rest ∨ ∃ record, s.host = .resetDuring record :: rest) ∧
        t = hardwareReset (takeEvent s)) := by
  rcases hh : s.host with _ | ⟨record | _ | record | ⟨first, second⟩, rest⟩
  · rw [step_of_host_nil hh] at h
    exact .inl ⟨rfl, (next_eq_next.mp h).symm⟩
  · cases hd : decode s.cfg record with
    | ok i => exact .inr (.inl ⟨record, rest, i, rfl, hd, step_of_host_issue_ok hh hd ▸ h⟩)
    | error e => rw [step_of_host_issue_error hh hd] at h; cases h
  · rw [step_of_host_reset hh] at h
    exact .inr (.inr ⟨⟨rest, .inl rfl⟩, (next_eq_next.mp h).symm⟩)
  · rw [step_of_host_resetDuring hh] at h
    exact .inr (.inr ⟨⟨rest, .inr ⟨record, rfl⟩⟩, (next_eq_next.mp h).symm⟩)
  · rw [step_of_host_overlap hh] at h
    cases h

end Sys2Proof.Proofs.StepByEvent
end

section
/-! Congruence of execution: an operation reads the parameters, STATUS, and a value register only where its valid bit is 1
(10_state.md R18, R23), so it answers alike from any two states that agree on those. -/

namespace Sys2Proof.Proofs.Congruence

open Machine Safety StepByEvent

/-- A relation of states that no operation escapes: related states agree on what operations read, and the named writes of
Machine/Ops.lean keep them related. -/
structure Respected (R : State → State → Prop) : Prop where
  cfg : ∀ {s t}, R s t → s.cfg = t.cfg
  status : ∀ {s t}, R s t → s.status = t.status
  localRegisters : ∀ {s t}, R s t → localValid s.status = true →
    s.localMac = t.localMac ∧ s.localIp = t.localIp ∧ s.localPort = t.localPort
  peerRegisters : ∀ {s t}, R s t → peerValid s.status = true → s.peerIp = t.peerIp ∧ s.peerPort = t.peerPort
  peerMacRegister : ∀ {s t}, R s t → peerMacValid s.status = true → s.peerMac = t.peerMac
  writeLocal : ∀ {s t} mac ip port, R s t → R (writeLocal mac ip port s) (writeLocal mac ip port t)
  writePeer : ∀ {s t} ip port, R s t → R (writePeer ip port s) (writePeer ip port t)
  writePeerMac : ∀ {s t} mac, R s t → R (writePeerMac mac s) (writePeerMac mac t)
  forgetPeerMac : ∀ {s t}, R s t → R (forgetPeerMac s) (forgetPeerMac t)
  clearStatus : ∀ {s t}, R s t → R (clearStatus s) (clearStatus t)

/-- From states related by `R` the meaning answers the same response, in states still related but for the response. -/
def AnswersAlike (R : State → State → Prop) (meaning : State → Outcome) : Prop :=
  ∀ s t, R s t → ∃ r u v, meaning s = .next (answered r u) ∧ meaning t = .next (answered r v) ∧ R u v

/-- An operation that writes nothing answers alike when related states get one reply. -/
theorem answersAlike_of_reply {R : State → State → Prop} {meaning : State → Outcome} {reply : State → Response}
    (h : ∀ s, meaning s = .next (answered (reply s) s)) (hr : ∀ s t, R s t → reply s = reply t) :
    AnswersAlike R meaning :=
  fun s t hst => ⟨reply s, s, t, h s, hr s t hst ▸ h t, hst⟩

theorem illegalOp_answersAlike (R : State → State → Prop) (operands : Bytes) : AnswersAlike R (illegalOp operands) :=
  answersAlike_of_reply (fun _ => rfl) fun _ _ _ => rfl

section
variable {R : State → State → Prop} {s t : State} (hR : Respected R)

include hR

theorem registerValid_congr (h : R s t) (r : BitVec 3) : registerValid r s = registerValid r t := by
  simp [registerValid, hR.status h]

theorem readRegister_congr (h : R s t) {r : BitVec 3} (hr : registerValid r s = true) :
    readRegister r s = readRegister r t := by
  rcases register_cases r with rfl | rfl | rfl | rfl | rfl | rfl | rfl | rfl
  · exact (hR.localRegisters h hr).1
  · simp [(hR.localRegisters h hr).2.1]
  · simp [(hR.localRegisters h hr).2.2]
  · exact hR.peerMacRegister h hr
  · simp [(hR.peerRegisters h hr).1]
  · simp [(hR.peerRegisters h hr).2]
  · simp [hR.status h]
  · simp [readRegister, hR.status h]

theorem destinationMac_congr (h : R s t) : destinationMac s = destinationMac t := by
  cases hm : peerMacValid s.status with
  | true => simp [destinationMac, ← hR.status h, hm, hR.peerMacRegister h hm]
  | false => simp [destinationMac, ← hR.status h, hm, hR.cfg h]

theorem buildPacket_congr (h : R s t) (hl : localValid s.status = true) (hp : peerValid s.status = true) (F : Bytes) :
    buildPacket s F = buildPacket t F := by
  obtain ⟨hmac, hip, hport⟩ := hR.localRegisters h hl
  obtain ⟨hpip, hpport⟩ := hR.peerRegisters h hp
  simp only [buildPacket, destinationMac_congr hR h, hR.cfg h, hmac, hip, hport, hpip, hpport]

theorem accepts_congr (h : R s t) (hl : localValid s.status = true) (P : Bytes) : accepts s P = accepts t P := by
  obtain ⟨-, hip, hport⟩ := hR.localRegisters h hl
  simp only [accepts, hR.cfg h, hip, hport]

theorem learnPeer_related (h : R s t) (P : Bytes) : R (learnPeer P s) (learnPeer P t) := by
  have hw := hR.writePeer (sourceIp P) (sourcePort P) h
  unfold learnPeer
  rw [← hR.cfg h]
  split
  · exact hR.writePeerMac (sourceMac P) hw
  · exact hw

theorem fcEncode_answersAlike (seq ty : BitVec 8) (payload : Bytes) :
    AnswersAlike R (exec (.fcEncode seq ty payload)) :=
  answersAlike_of_reply (fun s => exec_fcEncode s seq ty payload) fun s t h => by simp only [hR.cfg h]

theorem fcDecode_answersAlike (B : Bytes) : AnswersAlike R (exec (.fcDecode B)) :=
  answersAlike_of_reply (fun s => exec_fcDecode s B) fun s t h => by simp only [hR.cfg h]

theorem fcCksum_answersAlike (seq ty : BitVec 8) (payload : Bytes) :
    AnswersAlike R (exec (.fcCksum seq ty payload)) :=
  answersAlike_of_reply (fun s => exec_fcCksum s seq ty payload) fun s t h => by simp only [hR.cfg h]

theorem takeFrame_answersAlike (ty : MessageType) (seq : BitVec 5) (ck : Byte) (payload : Bytes) :
    AnswersAlike R (takeFrame ty seq ck payload) :=
  answersAlike_of_reply (fun _ => rfl) fun s t h => by simp only [hR.cfg h]

theorem ltBuild_answersAlike (F : Bytes) : AnswersAlike R (exec (.ltBuild F)) := by
  refine answersAlike_of_reply (fun s => exec_ltBuild s F) fun s t h => ?_
  rw [← hR.status h]
  by_cases hv : localValid s.status = false ∨ peerValid s.status = false
  · rw [if_pos hv, if_pos hv]
  · simp only [not_or, Bool.not_eq_false] at hv
    rw [buildPacket_congr hR h hv.1 hv.2]

theorem ltRd_answersAlike (r : BitVec 3) : AnswersAlike R (exec (.ltRd r)) := by
  refine answersAlike_of_reply (fun s => exec_ltRd s r) fun s t h => ?_
  rw [← registerValid_congr hR h]
  by_cases hv : registerValid r s = true
  · rw [readRegister_congr hR h hv]
  · rw [if_neg hv, if_neg hv]

theorem ltParse_answersAlike (P : Bytes) : AnswersAlike R (exec (.ltParse P)) := by
  intro s t h
  rw [exec_ltParse s, exec_ltParse t, ← hR.status h]
  by_cases hl : localValid s.status = true
  · rw [if_pos hl, if_pos hl, ← accepts_congr hR h hl]
    split
    · exact ⟨_, _, _, rfl, rfl, learnPeer_related hR h P⟩
    · exact ⟨_, _, _, rfl, rfl, h⟩
  · rw [if_neg hl, if_neg hl]
    exact ⟨_, _, _, rfl, rfl, h⟩

theorem ltSetpeermac_answersAlike (valid : Bool) (mac : Mac) : AnswersAlike R (exec (.ltSetpeermac valid mac)) := by
  intro s t h
  cases valid with
  | true => exact ⟨_, _, _, rfl, rfl, hR.writePeerMac mac h⟩
  | false => exact ⟨_, _, _, rfl, rfl, hR.forgetPeerMac h⟩

/-- Every instruction answers alike from states that a respected relation relates. -/
theorem exec_answersAlike (i : Instr) : AnswersAlike R (exec i) := by
  cases i with
  | fcEncode seq ty payload => exact fcEncode_answersAlike hR seq ty payload
  | fcDecode B => exact fcDecode_answersAlike hR B
  | fcCksum seq ty payload => exact fcCksum_answersAlike hR seq ty payload
  | ltBuild F => exact ltBuild_answersAlike hR F
  | ltParse P => exact ltParse_answersAlike hR P
  | ltSetup mac ip port => exact fun s t h => ⟨_, _, _, rfl, rfl, hR.writeLocal mac ip port h⟩
  | ltSetdest ip port => exact fun s t h => ⟨_, _, _, rfl, rfl, hR.forgetPeerMac (hR.writePeer ip port h)⟩
  | ltSetpeermac valid mac => exact ltSetpeermac_answersAlike hR valid mac
  | ltRd r => exact ltRd_answersAlike hR r
  | ltReset => exact fun s t h => ⟨_, _, _, rfl, rfl, hR.clearStatus h⟩
  | reserved0 operands | reserved6 operands | reserved7 operands | reservedC operands | reservedD operands
  | reservedE operands => exact illegalOp_answersAlike R operands
  | ack seq ck payload | nack seq ck payload | okAck seq ck payload | start seq ck payload | size seq ck payload
  | data seq ck payload | textNameAck seq ck payload | videoNameAck seq ck payload | imageNameAck seq ck payload
  | endOfFile seq ck payload | moveRight seq ck payload | moveUp seq ck payload | moveDown seq ck payload
  | moveLeft seq ck payload | mapUpdate seq ck payload | error seq ck payload =>
    exact takeFrame_answersAlike hR _ seq ck payload

end

/-! ### States that differ only in invalid registers -/

theorem sameView_respected : Respected SameView where
  cfg h := h.cfg
  status h := h.status
  localRegisters h := h.localRegisters
  peerRegisters h := h.peerRegisters
  peerMacRegister h := h.peerMacRegister
  writeLocal mac ip port h :=
    { cfg := h.cfg, status := congrArg setLocalValid h.status, response := h.response, host := h.host
      localRegisters := fun _ => ⟨rfl, rfl, rfl⟩
      peerRegisters := by simpa using h.peerRegisters
      peerMacRegister := by simpa using h.peerMacRegister }
  writePeer ip port h :=
    { cfg := h.cfg, status := congrArg setPeerValid h.status, response := h.response, host := h.host
      localRegisters := by simpa using h.localRegisters
      peerRegisters := fun _ => ⟨rfl, rfl⟩
      peerMacRegister := by simpa using h.peerMacRegister }
  writePeerMac mac h :=
    { cfg := h.cfg, status := congrArg setPeerMacValid h.status, response := h.response, host := h.host
      localRegisters := by simpa using h.localRegisters
      peerRegisters := by simpa using h.peerRegisters
      peerMacRegister := fun _ => rfl }
  forgetPeerMac h :=
    { cfg := h.cfg, status := congrArg clearPeerMacValid h.status, response := h.response, host := h.host
      localRegisters := by simpa using h.localRegisters
      peerRegisters := by simpa using h.peerRegisters
      peerMacRegister := by simp }
  clearStatus h :=
    { cfg := h.cfg, status := rfl, response := h.response, host := h.host
      localRegisters := by simp
      peerRegisters := by simp
      peerMacRegister := by simp }

theorem sameView_answered {s t : State} (h : SameView s t) (r : Response) :
    SameView (answered r s) (answered r t) :=
  { h with response := rfl }

theorem sameView_takeEvent {s t : State} (h : SameView s t) : SameView (takeEvent s) (takeEvent t) :=
  { h with host := congrArg List.tail h.host }

/-- Reset clears every valid bit, so its free register contents are not part of the view (10_state.md R24). -/
theorem sameView_hardwareReset {s t : State} (h : SameView s t) : SameView (hardwareReset s) (hardwareReset t) :=
  { cfg := h.cfg, status := rfl, response := rfl, host := h.host
    localRegisters := by simp
    peerRegisters := by simp
    peerMacRegister := by simp }

theorem sameOutcome_exec {s t : State} (h : SameView s t) (i : Instr) : sameOutcome (exec i s) (exec i t) := by
  obtain ⟨r, u, v, hs, ht, huv⟩ := exec_answersAlike sameView_respected i s t h
  rw [hs, ht]
  exact sameView_answered huv r

/-- Settles O51: by what the host does next, which both states agree on. -/
theorem invalidRegistersAreNeverObserved : Obligations.InvalidRegistersAreNeverObserved := by
  intro s t h
  have hreset := sameView_hardwareReset (sameView_takeEvent h)
  rcases hs : s.host with _ | ⟨record | _ | record | ⟨first, second⟩, rest⟩ <;> have ht := h.host ▸ hs
  · rw [step_of_host_nil hs, step_of_host_nil ht]
    exact h
  · cases hd : decode s.cfg record with
    | ok i =>
      rw [step_of_host_issue_ok hs hd, step_of_host_issue_ok ht (h.cfg ▸ hd)]
      exact sameOutcome_exec (sameView_takeEvent h) i
    | error e =>
      rw [step_of_host_issue_error hs hd, step_of_host_issue_error ht (h.cfg ▸ hd)]
      rfl
  · rw [step_of_host_reset hs, step_of_host_reset ht]
    exact hreset
  · rw [step_of_host_resetDuring hs, step_of_host_resetDuring ht]
    exact hreset
  · rw [step_of_host_overlap hs, step_of_host_overlap ht]
    rfl

/-! ### States with the same registers -/

theorem sameRegisters_respected : Respected SameRegisters where
  cfg h := h.cfg
  status h := h.status
  localRegisters h _ := ⟨h.localMac, h.localIp, h.localPort⟩
  peerRegisters h _ := ⟨h.peerIp, h.peerPort⟩
  peerMacRegister h _ := h.peerMac
  writeLocal _ _ _ h :=
    { h with localMac := rfl, localIp := rfl, localPort := rfl, status := congrArg setLocalValid h.status }
  writePeer _ _ h := { h with peerIp := rfl, peerPort := rfl, status := congrArg setPeerValid h.status }
  writePeerMac _ h := { h with peerMac := rfl, status := congrArg setPeerMacValid h.status }
  forgetPeerMac h := { h with status := congrArg clearPeerMacValid h.status }
  clearStatus h := { h with status := rfl }

theorem sameRegisters_answered {s t : State} (h : SameRegisters s t) (r : Response) :
    SameRegisters (answered r s) (answered r t) :=
  { h with }

/-- Settles O52: having the same registers is a respected relation, whatever stands at the port. -/
theorem equalCommandsEqualResponses : Obligations.EqualCommandsEqualResponses := by
  intro i s t s' h hs'
  obtain ⟨r, u, v, hs, ht, huv⟩ := exec_answersAlike sameRegisters_respected i s t h
  obtain rfl : answered r u = s' := next_eq_next.mp (hs ▸ hs')
  exact ⟨answered r v, ht, rfl, sameRegisters_answered huv r⟩

end Sys2Proof.Proofs.Congruence
end

section
/-! The registers of 10_state.md R10: who writes them, what reset leaves of them, and the parameters beside them. -/

namespace Sys2Proof.Proofs.Registers

open Machine StepByEvent

/-- Settles O11: the fields are those bits by definition. -/
theorem statusIsThreeValidBits : Obligations.StatusIsThreeValidBits :=
  ⟨fun _ => ⟨rfl, rfl, rfl⟩, fun _ _ => status_ext⟩

/-- While STATUS is clear, no value register holds a value (10_state.md R18). -/
theorem registerValid_of_status_zero {s : State} (h : s.status = 0b000#3) {r : BitVec 3} (hr : r.toNat ≤ 5) :
    registerValid r s = false := by
  rcases register_cases r with rfl | rfl | rfl | rfl | rfl | rfl | rfl | rfl <;> simp [h] at hr ⊢

theorem ltRd_of_status_zero {s : State} (h : s.status = 0b000#3) {r : BitVec 3} (hr : r.toNat ≤ 5) :
    exec (.ltRd r) s = .next (answered (.failed .notConfigured) s) := by
  have hr7 : r ≠ 7#3 := by rintro rfl; simp at hr
  simp [exec_ltRd, hr7, registerValid_of_status_zero h hr]

theorem ltBuild_of_status_zero {s : State} (h : s.status = 0b000#3) (F : Bytes) :
    exec (.ltBuild F) s = .next (answered (.failed .notConfigured) s) := by
  simp [exec_ltBuild, h]

theorem ltParse_of_status_zero {s : State} (h : s.status = 0b000#3) (P : Bytes) :
    exec (.ltParse P) s = .next (answered (.failed .notConfigured) s) := by
  simp [exec_ltParse, h]

/-- Settles O41: LT.RESET is `clearStatus`, and each of the three readers tests a valid bit first. -/
theorem resetLeavesRegistersUnobservable : Obligations.ResetLeavesRegistersUnobservable :=
  ⟨rfl, fun _ => ⟨_, rfl, rfl, rfl, rfl, rfl, rfl, rfl, rfl⟩, hardwareReset_status,
    fun _ h => ⟨fun _ => ltRd_of_status_zero h, ltBuild_of_status_zero h, ltParse_of_status_zero h⟩⟩

/-- Settles O47: by the effect of the instruction; only learning looks at a parameter. -/
theorem registersHaveTheirWriters : Obligations.RegistersHaveTheirWriters := by
  intro i s t h
  obtain ⟨u, r, effect, rfl, -⟩ := exec_effect h
  cases effect with
  | none => simp
  | setup mac ip port hi => simp [hi]
  | setdest ip port hi => simp [hi]
  | setpeermac mac hi => simp [hi]
  | forget mac hi => simp [hi]
  | learn P hi =>
    cases hl : s.cfg.learnPeerMac with
    | true => simp [hi, hl, learnPeer_eq]
    | false => simp [hi, hl, learnPeer_eq]
  | reset hi => simp [hi]

/-- Settles O48: idle, the instruction and the reset each keep them. -/
theorem stepsKeepTheParameters : Obligations.StepsKeepTheParameters := by
  intro s t h
  obtain ⟨-, rfl⟩ | ⟨-, -, i, -, -, hexec⟩ | ⟨-, rfl⟩ := step_next_cases h
  · rfl
  · exact (exec_keeps hexec).1
  · rfl

end Sys2Proof.Proofs.Registers
end

section
/-! The unit's memory: the record of a command is used once (20_memory.md R38, R40), and each field of a built packet stands
at its offset (20_memory.md R37). -/

namespace Sys2Proof.Proofs.Memory

open Machine

/-- Settles O1: at such a port the fetch finds the instruction, with the record taken. -/
theorem stepRunsDecodedInstruction : Obligations.StepRunsDecodedInstruction := by
  intro s record rest i hhost hdecode
  simp only [step, fetch_issue hhost hdecode]

/-! ### The fields of a built packet

The three headers are 42 bytes whatever they hold, so the substring at a constant offset is, by computation, the big-endian
field that was put there; the encoder's round trip then reads the value back. -/

section
variable (s : State) (F : Bytes)

@[simp] theorem memRead_buildPacket_destinationMac : memRead (buildPacket s F) 0 6 = (destinationMac s).toNat :=
  bigEndian_mac6 (destinationMac s)

@[simp] theorem memRead_buildPacket_sourceMac : memRead (buildPacket s F) 6 6 = s.localMac.toNat :=
  bigEndian_mac6 s.localMac

@[simp] theorem memRead_buildPacket_etherType : memRead (buildPacket s F) 12 2 = s.cfg.ethertypeIpv4.toNat :=
  bigEndian_be16 s.cfg.ethertypeIpv4

@[simp] theorem byteAt_buildPacket_version : byteAt (buildPacket s F) 14 = ipVersionLength := rfl

@[simp] theorem byteAt_buildPacket_tos : byteAt (buildPacket s F) 15 = s.cfg.ipTos := rfl

@[simp] theorem memRead_buildPacket_identification : memRead (buildPacket s F) 18 2 = s.cfg.ipId.toNat :=
  bigEndian_be16 s.cfg.ipId

@[simp] theorem memRead_buildPacket_fragment : memRead (buildPacket s F) 20 2 = s.cfg.ipFrag.toNat :=
  bigEndian_be16 s.cfg.ipFrag

@[simp] theorem byteAt_buildPacket_ttl : byteAt (buildPacket s F) 22 = s.cfg.ipTtl := rfl

@[simp] theorem byteAt_buildPacket_protocol : byteAt (buildPacket s F) 23 = ipProtoUdp := rfl

@[simp] theorem memRead_buildPacket_headerChecksum :
    memRead (buildPacket s F) 24 2 = (ipck (ipHeaderZero s.cfg F.length s.localIp s.peerIp)).toNat :=
  bigEndian_be16 (ipck (ipHeaderZero s.cfg F.length s.localIp s.peerIp))

@[simp] theorem memRead_buildPacket_sourceIp : memRead (buildPacket s F) 26 4 = s.localIp.toNat :=
  bigEndian_be32 s.localIp

@[simp] theorem memRead_buildPacket_destinationIp : memRead (buildPacket s F) 30 4 = s.peerIp.toNat :=
  bigEndian_be32 s.peerIp

@[simp] theorem memRead_buildPacket_sourcePort : memRead (buildPacket s F) 34 2 = s.localPort.toNat :=
  bigEndian_be16 s.localPort

@[simp] theorem memRead_buildPacket_destinationPort : memRead (buildPacket s F) 36 2 = s.peerPort.toNat :=
  bigEndian_be16 s.peerPort

@[simp] theorem memRead_buildPacket_udpChecksum : memRead (buildPacket s F) 40 2 = s.cfg.udpCkTx.toNat :=
  bigEndian_be16 s.cfg.udpCkTx

@[simp] theorem slice_buildPacket_frame : slice (buildPacket s F) 42 (42 + F.length) = F := by
  have hheaders : slice (buildPacket s F) 42 (42 + F.length) = slice F 0 (42 + F.length - 42) :=
    slice_append_right (by simp)
  rw [hheaders, Nat.add_sub_cancel_left, slice_all]

variable {F}

/-- The IPv4 total length, for every frame that 16 bits can count with its headers. -/
theorem memRead_buildPacket_totalLength (h : 28 + F.length < 65536) :
    memRead (buildPacket s F) 16 2 = 28 + F.length :=
  (bigEndian_be16 (BitVec.ofNat 16 (28 + F.length))).trans (Nat.mod_eq_of_lt h)

/-- The UDP length, likewise. -/
theorem memRead_buildPacket_udpLength (h : 8 + F.length < 65536) :
    memRead (buildPacket s F) 38 2 = 8 + F.length :=
  (bigEndian_be16 (BitVec.ofNat 16 (8 + F.length))).trans (Nat.mod_eq_of_lt h)

variable {s}

/-- LT.BUILD of a configured unit and a frame that is not too long (41_link_headers.md R95). -/
theorem ltBuild_of_configured (hl : localValid s.status = true) (hp : peerValid s.status = true)
    (hF : F.length ≤ 131) : exec (.ltBuild F) s = .next (answered (.ok (.packet (buildPacket s F))) s) := by
  rw [exec_ltBuild, if_neg (by simp [hl, hp]), if_neg (Nat.not_lt.mpr hF)]

end

/-- Settles O26: the packet is `buildPacket s F`, read field by field. -/
theorem builtPacketFields : Obligations.BuiltPacketFields := by
  intro s F hl hp hF
  refine ⟨buildPacket s F, ltBuild_of_configured hl hp hF, buildPacket_length s F,
    memRead_buildPacket_destinationMac s F, memRead_buildPacket_sourceMac s F, memRead_buildPacket_etherType s F,
    byteAt_buildPacket_version s F, byteAt_buildPacket_tos s F, memRead_buildPacket_totalLength s (by omega),
    memRead_buildPacket_identification s F, memRead_buildPacket_fragment s F, byteAt_buildPacket_ttl s F,
    byteAt_buildPacket_protocol s F, memRead_buildPacket_headerChecksum s F, memRead_buildPacket_sourceIp s F,
    memRead_buildPacket_destinationIp s F, memRead_buildPacket_sourcePort s F,
    memRead_buildPacket_destinationPort s F, memRead_buildPacket_udpLength s (by omega),
    memRead_buildPacket_udpChecksum s F, ?_⟩
  rw [buildPacket_length, slice_buildPacket_frame]

end Sys2Proof.Proofs.Memory
end

section
/-! The records of instructions (30_encoding.md R45 to R49, R58): the decoder reads exactly the records the encoder writes,
and a record is written for one instruction only. The carrying of commands is log 5. -/

namespace Sys2Proof.Proofs.Records

open Machine

/-! ### Fixed-width operands: a field read from a string and written again is the substring it was read from -/

theorem be16_bigEndian_of_length : ∀ {B : Bytes}, B.length = 2 → be16 (.ofNat 16 (bigEndian B)) = B
  | [a, b], _ => be16_bigEndian a b

theorem be32_bigEndian_of_length : ∀ {B : Bytes}, B.length = 4 → be32 (.ofNat 32 (bigEndian B)) = B
  | [a, b, c, d], _ => be32_bigEndian a b c d

theorem mac6_bigEndian_of_length : ∀ {B : Bytes}, B.length = 6 → mac6 (.ofNat 48 (bigEndian B)) = B
  | [a, b, c, d, e, f], _ => mac6_bigEndian a b c d e f

section
variable {B : Bytes} {off i j k : Nat}

theorem be16_memRead (h : off + 2 ≤ B.length) : be16 (.ofNat 16 (memRead B off 2)) = slice B off (off + 2) :=
  be16_bigEndian_of_length (by rw [slice_length h, Nat.add_sub_cancel_left])

theorem be32_memRead (h : off + 4 ≤ B.length) : be32 (.ofNat 32 (memRead B off 4)) = slice B off (off + 4) :=
  be32_bigEndian_of_length (by rw [slice_length h, Nat.add_sub_cancel_left])

theorem mac6_memRead (h : off + 6 ≤ B.length) : mac6 (.ofNat 48 (memRead B off 6)) = slice B off (off + 6) :=
  mac6_bigEndian_of_length (by rw [slice_length h, Nat.add_sub_cancel_left])

theorem slice_of_length_eq (h : B.length = j) : slice B 0 j = B := h ▸ slice_all B

/-- Adjacent substrings make the substring that spans them. -/
theorem slice_append_slice (hij : i ≤ j) (hjk : j ≤ k) : slice B i j ++ slice B j k = slice B i k := by
  have hdrop : B.drop j = (B.drop i).drop (j - i) := by rw [List.drop_drop, Nat.add_sub_cancel' hij]
  have hlen : k - i = (j - i) + (k - j) := by omega
  rw [slice, slice, slice, hdrop, hlen, List.take_add]

end

/-! ### The sixteen frame rows as one -/

theorem encode_frameInstr (c : Config) (t : MessageType) (seq : BitVec 5) (ck : Byte) (payload : Bytes) :
    encode c (frameInstr t seq ck payload) = frameBytes c.frameBitOrder seq (typeNumber t) ck payload := by
  cases t <;> rfl

theorem wellFormed_frameInstr (c : Config) (t : MessageType) (seq : BitVec 5) (ck : Byte) (payload : Bytes) :
    (frameInstr t seq ck payload).wellFormed c = decide (payload.length ≤ 127) := by
  cases t <;> rfl

/-! ### From the instruction to its record and back

With the lead byte known, `decode` computes to the decoder of the operands, so each proof turns on what that one reads. -/

/-- The record of the instruction is read as the instruction. -/
def ReadsBack (c : Config) (i : Instr) : Prop := decode c (encode c i) = .ok i

section
variable {c : Config}

/-- The one-byte length before a byte string of at most 255 bytes counts it. -/
theorem toNat_shortLength {B : Bytes} (h : B.length ≤ 255) : (BitVec.ofNat 8 B.length).toNat = B.length := by
  rw [BitVec.toNat_ofNat]; omega

theorem decodeSeqTypePayload_record (mk : BitVec 8 → BitVec 8 → Bytes → Instr) (seq ty : BitVec 8) {payload : Bytes}
    (h : payload.length ≤ 255) :
    decodeSeqTypePayload mk (seq :: ty :: .ofNat 8 payload.length :: payload) = .ok (mk seq ty payload) := by
  rw [decodeSeqTypePayload, toNat_shortLength h, decodeExact_self]

theorem ltBuild_readsBack {F : Bytes} (h : F.length ≤ 255) : ReadsBack c (.ltBuild F) := by
  have hread : decodeExact (BitVec.ofNat 8 F.length).toNat F (.ltBuild F) = .ok (.ltBuild F) := by
    rw [toNat_shortLength h, decodeExact_self]
  exact hread

theorem ltSetup_readsBack (mac : Mac) (ip : Ip) (port : Port) : ReadsBack c (.ltSetup mac ip port) := by
  have hread : decodeExact 12 (mac6 mac ++ be32 ip ++ be16 port)
      (.ltSetup (.ofNat 48 (bigEndian (mac6 mac))) (.ofNat 32 (bigEndian (be32 ip)))
        (.ofNat 16 (bigEndian (be16 port)))) = .ok (.ltSetup mac ip port) := by simp [decodeExact_eq_ok]
  exact hread

theorem ltSetdest_readsBack (ip : Ip) (port : Port) : ReadsBack c (.ltSetdest ip port) := by
  have hread : decodeExact 6 (be32 ip ++ be16 port)
      (.ltSetdest (.ofNat 32 (bigEndian (be32 ip))) (.ofNat 16 (bigEndian (be16 port)))) =
        .ok (.ltSetdest ip port) := by simp [decodeExact_eq_ok]
  exact hread

theorem ltSetpeermac_readsBack (valid : Bool) (mac : Mac) : ReadsBack c (.ltSetpeermac valid mac) := by
  have hread : decodeExact 6 (mac6 mac) (.ltSetpeermac valid (.ofNat 48 (bigEndian (mac6 mac)))) =
      .ok (.ltSetpeermac valid mac) := by simp [decodeExact_eq_ok]
  cases valid with
  | false => exact hread
  | true => exact hread

theorem ltRd_readsBack (r : BitVec 3) : ReadsBack c (.ltRd r) := by
  rcases register_cases r with rfl | rfl | rfl | rfl | rfl | rfl | rfl | rfl <;> rfl

theorem decode_frameBytes (t : MessageType) (seq : BitVec 5) (ck : Byte) {payload : Bytes} (h : payload.length ≤ 127) :
    decode c (frameBytes c.frameBitOrder seq (typeNumber t) ck payload) = .ok (frameInstr t seq ck payload) :=
  decodeFrameRecord_frameBytes c.frameBitOrder t seq ck h

end

/-- Settles O6: by the instruction; the sixteen frame rows are frames of their types. -/
theorem decodeOfEncode : Obligations.DecodeOfEncode := by
  intro c i hwf
  cases i with
  | fcEncode seq ty payload => exact decodeSeqTypePayload_record .fcEncode seq ty (of_decide_eq_true hwf)
  | fcDecode B => exact decodeLongString_encodeLongString .fcDecode (of_decide_eq_true hwf)
  | fcCksum seq ty payload => exact decodeSeqTypePayload_record .fcCksum seq ty (of_decide_eq_true hwf)
  | ltBuild F => exact ltBuild_readsBack (of_decide_eq_true hwf)
  | ltParse P => exact decodeLongString_encodeLongString .ltParse (of_decide_eq_true hwf)
  | ltSetup mac ip port => exact ltSetup_readsBack mac ip port
  | ltSetdest ip port => exact ltSetdest_readsBack ip port
  | ltSetpeermac valid mac => exact ltSetpeermac_readsBack valid mac
  | ltRd r => exact ltRd_readsBack r
  | ltReset | reserved0 _ | reserved6 _ | reserved7 _ | reservedC _ | reservedD _ | reservedE _ => rfl
  | ack seq ck payload | nack seq ck payload | okAck seq ck payload | start seq ck payload | size seq ck payload
  | data seq ck payload | textNameAck seq ck payload | videoNameAck seq ck payload | imageNameAck seq ck payload
  | endOfFile seq ck payload | moveRight seq ck payload | moveUp seq ck payload | moveDown seq ck payload
  | moveLeft seq ck payload | mapUpdate seq ck payload | error seq ck payload =>
    exact decode_frameBytes _ seq ck (of_decide_eq_true hwf)

/-! ### From the record to its instruction and back -/

/-- The bytes are the record of the instruction, and its operands are within what the formats admit. -/
def IsRecordOf (c : Config) (record : Bytes) (i : Instr) : Prop := i.wellFormed c = true ∧ encode c i = record

/-- A payload that is read stands after `seq`, `type` and its length. -/
theorem decodeSeqTypePayload_eq_ok {mk : BitVec 8 → BitVec 8 → Bytes → Instr} {bytes : Bytes} {i : Instr}
    (h : decodeSeqTypePayload mk bytes = .ok i) :
    ∃ seq ty payload, i = mk seq ty payload ∧ payload.length ≤ 255 ∧
      seq :: ty :: .ofNat 8 payload.length :: payload = bytes := by
  unfold decodeSeqTypePayload at h
  split at h
  · rename_i seq ty len payload
    obtain ⟨hl, rfl⟩ := decodeExact_eq_ok.mp h
    exact ⟨seq, ty, payload, rfl, by omega, by rw [hl, BitVec.ofNat_toNat, BitVec.setWidth_eq]⟩
  · cases h

/-- A frame that is read is of the type its type field selects, and its payload is as long as its length field says. -/
theorem decodeFrameRecord_eq_ok {o : FrameBitOrder} {bytes : Bytes} {i : Instr}
    (h : decodeFrameRecord o bytes = .ok i) :
    ∃ t seq ck payload, i = frameInstr t seq ck payload ∧ payload.length ≤ 127 ∧
      frameBytes o seq (typeNumber t) ck payload = marker :: bytes := by
  unfold decodeFrameRecord at h
  split at h
  · rename_i b1 b2 ck payload
    obtain ⟨hl, rfl⟩ := decodeExact_eq_ok.mp h
    have hlen : payloadLength payload = lengthField o b1 := by
      rw [payloadLength, hl, BitVec.ofNat_toNat, BitVec.setWidth_eq]
    refine ⟨_, _, ck, payload, rfl, by omega, ?_⟩
    rw [frameBytes, hlen, headerByte1_fields, typeNumber_typeOfNumber, headerByte2_fields]
  · cases h

section
variable {c : Config} {rest : Bytes} {i : Instr}

theorem isRecordOf_of_decodeShortString (h : decodeShortString .ltBuild rest = .ok i) :
    IsRecordOf c (0x04#8 :: rest) i := by
  unfold decodeShortString at h
  split at h
  · rename_i len F
    obtain ⟨hl, rfl⟩ := decodeExact_eq_ok.mp h
    have hF : F.length ≤ 255 := by omega
    refine ⟨decide_eq_true hF, ?_⟩
    rw [encode, hl, BitVec.ofNat_toNat, BitVec.setWidth_eq]
  · cases h

theorem isRecordOf_of_decodeSetup
    (h : decodeExact 12 rest (.ltSetup (.ofNat 48 (memRead rest 0 6)) (.ofNat 32 (memRead rest 6 4))
      (.ofNat 16 (memRead rest 10 2))) = .ok i) : IsRecordOf c (0x08#8 :: rest) i := by
  obtain ⟨hl, rfl⟩ := decodeExact_eq_ok.mp h
  refine ⟨rfl, ?_⟩
  rw [encode, mac6_memRead (by omega), be32_memRead (by omega), be16_memRead (by omega),
    slice_append_slice (by omega) (by omega), slice_append_slice (by omega) (by omega), slice_of_length_eq hl]

theorem isRecordOf_of_decodeSetdest
    (h : decodeExact 6 rest (.ltSetdest (.ofNat 32 (memRead rest 0 4)) (.ofNat 16 (memRead rest 4 2))) = .ok i) :
    IsRecordOf c (0x09#8 :: rest) i := by
  obtain ⟨hl, rfl⟩ := decodeExact_eq_ok.mp h
  refine ⟨rfl, ?_⟩
  rw [encode, be32_memRead (by omega), be16_memRead (by omega), slice_append_slice (by omega) (by omega),
    slice_of_length_eq hl]

theorem isRecordOf_of_decodeSetpeermac (h : decodeSetpeermac rest = .ok i) : IsRecordOf c (0x0A#8 :: rest) i := by
  unfold decodeSetpeermac at h
  split at h
  · rename_i valid mac
    split_ifs at h with hvalid
    obtain ⟨hl, rfl⟩ := decodeExact_eq_ok.mp h
    have hmac : mac6 (.ofNat 48 (memRead mac 0 6)) = mac := by rw [mac6_memRead (by omega), slice_of_length_eq hl]
    have hbit : (if valid == 1#8 then 1#8 else 0#8) = valid := by
      obtain rfl | rfl : valid = 0#8 ∨ valid = 1#8 := by bv_omega
      · rfl
      · rfl
    exact ⟨rfl, by rw [encode, hmac, hbit]⟩
  · cases h

theorem isRecordOf_of_decodeRd (h : decodeRd rest = .ok i) : IsRecordOf c (0x0B#8 :: rest) i := by
  unfold decodeRd at h
  split at h
  · rename_i r more
    split_ifs at h with hr
    obtain ⟨hl, rfl⟩ := decodeExact_eq_ok.mp h
    obtain rfl := List.eq_nil_of_length_eq_zero hl
    have hbits : (r.setWidth 3).setWidth 8 = r := BitVec.eq_of_toNat_eq (by simp; omega)
    exact ⟨rfl, by rw [encode, hbits]⟩
  · cases h

theorem isRecordOf_of_decodeReset (h : decodeExact 0 rest .ltReset = .ok i) : IsRecordOf c (0x0F#8 :: rest) i := by
  obtain ⟨hl, rfl⟩ := decodeExact_eq_ok.mp h
  obtain rfl := List.eq_nil_of_length_eq_zero hl
  exact ⟨rfl, rfl⟩

theorem isRecordOf_of_decodeFrameRecord (h : decodeFrameRecord c.frameBitOrder rest = .ok i) :
    IsRecordOf c (marker :: rest) i := by
  obtain ⟨t, seq, ck, payload, rfl, hl, hbytes⟩ := decodeFrameRecord_eq_ok h
  exact ⟨by rw [wellFormed_frameInstr]; exact decide_eq_true hl, by rw [encode_frameInstr, hbytes]⟩

/-- Sixteen operation codes (30_encoding.md R58, R59). -/
theorem opcode_cases (op : BitVec 4) :
    op = 0x0#4 ∨ op = 0x1#4 ∨ op = 0x2#4 ∨ op = 0x3#4 ∨ op = 0x4#4 ∨ op = 0x5#4 ∨ op = 0x6#4 ∨ op = 0x7#4 ∨
      op = 0x8#4 ∨ op = 0x9#4 ∨ op = 0xA#4 ∨ op = 0xB#4 ∨ op = 0xC#4 ∨ op = 0xD#4 ∨ op = 0xE#4 ∨ op = 0xF#4 := by
  revert op; decide

/-- A command that is read is the record of its instruction, by its operation code. -/
theorem isRecordOf_of_decodeCommand {op : BitVec 4} (h : decodeCommand c op rest = .ok i) :
    IsRecordOf c (op.setWidth 8 :: rest) i := by
  rcases opcode_cases op with rfl | rfl | rfl | rfl | rfl | rfl | rfl | rfl | rfl | rfl | rfl | rfl | rfl | rfl | rfl |
    rfl
  · -- RESERVED_0x0
    obtain rfl := Except.ok.inj h
    exact ⟨rfl, rfl⟩
  · -- FC.ENCODE
    obtain ⟨seq, ty, payload, rfl, hl, rfl⟩ := decodeSeqTypePayload_eq_ok (mk := .fcEncode) h
    exact ⟨decide_eq_true hl, rfl⟩
  · -- FC.DECODE
    obtain ⟨B, rfl, hl, rfl⟩ := decodeLongString_eq_ok (mk := .fcDecode) h
    exact ⟨decide_eq_true hl, rfl⟩
  · -- FC.CKSUM
    obtain ⟨seq, ty, payload, rfl, hl, rfl⟩ := decodeSeqTypePayload_eq_ok (mk := .fcCksum) h
    exact ⟨decide_eq_true hl, rfl⟩
  · -- LT.BUILD
    exact isRecordOf_of_decodeShortString h
  · -- LT.PARSE
    obtain ⟨P, rfl, hl, rfl⟩ := decodeLongString_eq_ok (mk := .ltParse) h
    exact ⟨decide_eq_true hl, rfl⟩
  · -- RESERVED_0x6
    obtain rfl := Except.ok.inj h
    exact ⟨rfl, rfl⟩
  · -- RESERVED_0x7
    obtain rfl := Except.ok.inj h
    exact ⟨rfl, rfl⟩
  · -- LT.SETUP
    exact isRecordOf_of_decodeSetup h
  · -- LT.SETDEST
    exact isRecordOf_of_decodeSetdest h
  · -- LT.SETPEERMAC
    exact isRecordOf_of_decodeSetpeermac h
  · -- LT.RD
    exact isRecordOf_of_decodeRd h
  · -- RESERVED_0xC
    obtain rfl := Except.ok.inj h
    exact ⟨rfl, rfl⟩
  · -- RESERVED_0xD
    obtain rfl := Except.ok.inj h
    exact ⟨rfl, rfl⟩
  · -- RESERVED_0xE
    obtain rfl := Except.ok.inj h
    exact ⟨rfl, rfl⟩
  · -- LT.RESET
    exact isRecordOf_of_decodeReset h

end

/-- Settles O7: a record that decodes begins with the marker, or with an operation code below a zero nibble. -/
theorem decodedRecordIsCanonical : Obligations.DecodedRecordIsCanonical := by
  intro c record i h
  unfold decode at h
  split at h
  · cases h
  · rename_i lead rest
    split_ifs at h with hmarker hop
    · exact hmarker ▸ isRecordOf_of_decodeFrameRecord h
    · have hlead : (lead.setWidth 4).setWidth 8 = lead := BitVec.eq_of_toNat_eq (by simp; omega)
      exact hlead ▸ isRecordOf_of_decodeCommand h

/-- Settles O8: each word is what the encoder writes for its instruction. -/
theorem handWrittenWordsDecode : Obligations.HandWrittenWordsDecode :=
  ⟨decodeOfEncode standardConfig (.fcEncode 5#8 5#8 [0x48#8, 0x69#8, 0x21#8]) rfl,
    decodeOfEncode standardConfig (.ltSetdest 0xC0A80014#32 6000#16) rfl,
    decodeOfEncode standardConfig (.ltSetpeermac true 0x020000000002#48) rfl,
    decodeOfEncode standardConfig (.ltRd 4#3) rfl,
    decodeOfEncode standardConfig (.start 10#5 0x36#8 []) rfl,
    decodeOfEncode standardConfig (.data 16#5 0x5E#8 [0x48#8, 0x69#8, 0x21#8]) rfl⟩

/-- Settles O9: the numbers by computation, their totality by the law of the type field. -/
theorem messageTypesAreNumbered : Obligations.MessageTypesAreNumbered :=
  ⟨rfl, typeNumber_typeOfNumber⟩

end Sys2Proof.Proofs.Records
end

section
/-! The reserved operation codes (30_encoding.md R59): `IllegalOp`, whatever follows the code. -/

namespace Sys2Proof.Proofs.ReservedCodes

open Machine Memory

/-- Settles O40: each of the six meanings is `illegalOp`. -/
theorem reservedCodesAreIllegal : Obligations.ReservedCodesAreIllegal := by
  intro s operands mk hmk
  simp only [List.mem_cons, List.not_mem_nil, or_false] at hmk
  rcases hmk with rfl | rfl | rfl | rfl | rfl | rfl <;> rfl

/-- A reserved code takes all the bytes after it as the operands of its instruction (60_exceptions.md R165; log 14). -/
theorem decode_reservedCode (c : Config) {op : Byte} (operands : Bytes)
    (h : op ∈ [0x00#8, 0x06#8, 0x07#8, 0x0C#8, 0x0D#8, 0x0E#8]) :
    ∃ mk ∈ [Instr.reserved0, Instr.reserved6, Instr.reserved7, Instr.reservedC, Instr.reservedD, Instr.reservedE],
      decode c (op :: operands) = .ok (mk operands) := by
  simp only [List.mem_cons, List.not_mem_nil, or_false] at h
  rcases h with rfl | rfl | rfl | rfl | rfl | rfl
  · exact ⟨.reserved0, by simp, rfl⟩
  · exact ⟨.reserved6, by simp, rfl⟩
  · exact ⟨.reserved7, by simp, rfl⟩
  · exact ⟨.reservedC, by simp, rfl⟩
  · exact ⟨.reservedD, by simp, rfl⟩
  · exact ⟨.reservedE, by simp, rfl⟩

/-- Settles O5: the record decodes whatever the operands, and the step runs its instruction. -/
theorem reservedCodeBeforeOperands : Obligations.ReservedCodeBeforeOperands := by
  intro s op operands rest hop hhost
  obtain ⟨mk, hmk, hdecode⟩ := decode_reservedCode s.cfg operands hop
  rw [stepRunsDecodedInstruction s _ rest _ hhost hdecode]
  exact reservedCodesAreIllegal _ operands mk hmk

end Sys2Proof.Proofs.ReservedCodes
end

section
/-! The response at the port is of the response format (30_encoding.md R60), and the error codes are distinct
(43_message_types.md R152): so at reset, and every step keeps it so. -/

namespace Sys2Proof.Proofs.ResponseFormat

open Machine Safety StepByEvent Records

/-- Executing the instruction ends with a response of the format, and the parameters as they were. -/
def AnswersFit (i : Instr) (s : State) : Prop :=
  ∃ u r, exec i s = .next (answered r u) ∧ u.cfg = s.cfg ∧ responseFits s.cfg r = true

/-- What the unmarshaller answers fits: the payload it hands over passed the length test. -/
theorem responseFits_unmarshal (c : Config) (o : FrameBitOrder) (B : Bytes) :
    responseFits c (unmarshal o B) = true := by
  obtain h | h | h | ⟨seq, ty, len, ck, payload, hl, h⟩ := unmarshal_cases o B <;> rw [h]
  · rfl
  · rfl
  · rfl
  · exact beq_iff_eq.mpr hl

/-- The frame of an accepted packet and the three headers are within the packet (41_link_headers.md R100, R101). -/
theorem packetFrame_length_le {s : State} {P : Bytes} (h : accepts s P = true) :
    (packetFrame P).length + 42 ≤ P.length := by
  obtain ⟨-, -, -, -, -, hudp, hend⟩ := (accepts_iff s P).mp h
  rw [packetFrame, udpLength, slice_length hend]
  omega

theorem fcEncode_answersFit (seq ty : BitVec 8) (payload : Bytes) (s : State) :
    AnswersFit (.fcEncode seq ty payload) s := by
  refine ⟨s, _, exec_fcEncode s seq ty payload, rfl, ?_⟩
  split
  · next hb =>
    obtain ⟨-, -, hl⟩ := (withinBounds_iff seq ty payload).mp hb
    have hF : 4 + payload.length ≤ 131 := Nat.add_le_add_left hl 4
    simp [responseFits, valuesFit, hF]
  · rfl

theorem fcCksum_answersFit (seq ty : BitVec 8) (payload : Bytes) (s : State) :
    AnswersFit (.fcCksum seq ty payload) s :=
  ⟨s, _, exec_fcCksum s seq ty payload, rfl, by split <;> rfl⟩

theorem ltBuild_answersFit (F : Bytes) (s : State) : AnswersFit (.ltBuild F) s := by
  refine ⟨s, _, exec_ltBuild s F, rfl, ?_⟩
  split_ifs with hv hF
  · rfl
  · rfl
  · simp [responseFits, valuesFit, Nat.le_of_not_lt hF]

/-- LT.PARSE hands over a frame only of an accepted packet, which the format holds to RX_MAX (41_link_headers.md R98). -/
theorem ltParse_answersFit {P : Bytes} {s : State} (hP : P.length ≤ s.cfg.rxMax.toNat) :
    AnswersFit (.ltParse P) s := by
  have h := exec_ltParse s P
  split_ifs at h with hv ha
  · have hF := packetFrame_length_le ha
    exact ⟨_, _, h, (exec_keeps h).1, decide_eq_true (hF.trans hP)⟩
  · exact ⟨_, _, h, rfl, rfl⟩
  · exact ⟨_, _, h, rfl, rfl⟩

theorem ltSetpeermac_answersFit (valid : Bool) (mac : Mac) (s : State) : AnswersFit (.ltSetpeermac valid mac) s := by
  cases valid with
  | true => exact ⟨writePeerMac mac s, .ok .none, rfl, rfl, rfl⟩
  | false => exact ⟨forgetPeerMac s, .ok .none, rfl, rfl, rfl⟩

theorem ltRd_answersFit (r : BitVec 3) (s : State) : AnswersFit (.ltRd r) s :=
  ⟨s, _, exec_ltRd s r, rfl, by split_ifs <;> rfl⟩

/-- A well-formed instruction answers within the format, by the instruction. -/
theorem exec_answersFit {i : Instr} {s : State} (hwf : i.wellFormed s.cfg = true) : AnswersFit i s := by
  cases i with
  | fcEncode seq ty payload => exact fcEncode_answersFit seq ty payload s
  | fcDecode B => exact ⟨s, _, exec_fcDecode s B, rfl, responseFits_unmarshal ..⟩
  | fcCksum seq ty payload => exact fcCksum_answersFit seq ty payload s
  | ltBuild F => exact ltBuild_answersFit F s
  | ltParse P => exact ltParse_answersFit (of_decide_eq_true hwf)
  | ltSetup mac ip port => exact ⟨writeLocal mac ip port s, .ok .none, rfl, rfl, rfl⟩
  | ltSetdest ip port => exact ⟨forgetPeerMac (writePeer ip port s), .ok .none, rfl, rfl, rfl⟩
  | ltSetpeermac valid mac => exact ltSetpeermac_answersFit valid mac s
  | ltRd r => exact ltRd_answersFit r s
  | ltReset => exact ⟨clearStatus s, .ok .none, rfl, rfl, rfl⟩
  | reserved0 _ | reserved6 _ | reserved7 _ | reservedC _ | reservedD _ | reservedE _ =>
    exact ⟨s, .failed .illegalOp, rfl, rfl, rfl⟩
  | ack _ _ _ | nack _ _ _ | okAck _ _ _ | start _ _ _ | size _ _ _ | data _ _ _ | textNameAck _ _ _
  | videoNameAck _ _ _ | imageNameAck _ _ _ | endOfFile _ _ _ | moveRight _ _ _ | moveUp _ _ _ | moveDown _ _ _
  | moveLeft _ _ _ | mapUpdate _ _ _ | error _ _ _ =>
    exact ⟨s, _, rfl, rfl, responseFits_unmarshal ..⟩

/-- With nothing at the port only the error codes matter. -/
theorem wellFormedState_of_no_response {s : State} (h : errorCodesDistinct s.cfg = true) (hnone : s.response = none) :
    wellFormedState s = true := by
  simp [wellFormedState, portFits, h, hnone]

theorem wellFormedState_answered {r : Response} {s : State} (h : errorCodesDistinct s.cfg = true)
    (hr : responseFits s.cfg r = true) : wellFormedState (answered r s) = true := by
  simp [wellFormedState, portFits, h, hr]

/-- Settles O49: three distinct free bytes, and nothing at the port. -/
theorem resetIsWellFormed : Obligations.ResetIsWellFormed :=
  wellFormedState_of_no_response errorCodesDistinct_standardConfig rfl

/-- Settles O50: idle keeps the state, a decoded instruction is well-formed (O7) and so answers within the format, a reset
clears the port. -/
theorem stepsKeepResponsesWellFormed : Obligations.StepsKeepResponsesWellFormed := by
  intro s t hs h
  have hcodes : errorCodesDistinct s.cfg = true := (Bool.and_eq_true_iff.mp hs).1
  obtain ⟨-, rfl⟩ | ⟨record, -, i, -, hdecode, hexec⟩ | ⟨-, rfl⟩ := step_next_cases h
  · exact hs
  · obtain ⟨hwf, -⟩ := decodedRecordIsCanonical s.cfg record i hdecode
    obtain ⟨u, r, hanswer, hcfg, hr⟩ := exec_answersFit (s := takeEvent s) hwf
    obtain rfl := next_eq_next.mp (hanswer.symm.trans hexec)
    rw [takeEvent_cfg] at hcfg hr
    exact wellFormedState_answered (hcfg ▸ hcodes) (hcfg ▸ hr)
  · exact wellFormedState_of_no_response hcodes rfl

end Sys2Proof.Proofs.ResponseFormat
end

section
/-! The frame codec (40_frame_codec.md): a string decodes exactly when it is the frame that FC.ENCODE makes of the fields
it decodes to, so encoding and decoding undo each other and encoding is injective. -/

namespace Sys2Proof.Proofs.FrameCodec

open Machine

/-! ### Unmarshalling and marshalling -/

/-- A payload as long as a 7-bit length field says (30_encoding.md R45). -/
theorem payloadLength_eq_of_length {payload : Bytes} {len : BitVec 7} (h : payload.length = len.toNat) :
    payloadLength payload = len := by
  rw [payloadLength, h, BitVec.ofNat_toNat, BitVec.setWidth_eq]

/-- What unmarshals is what marshalling the fields gives (40_frame_codec.md R83), whatever the string. -/
theorem unmarshal_eq_fields_iff {o : FrameBitOrder} {B payload : Bytes} {seq : BitVec 5} {ty : BitVec 4}
    {len : BitVec 7} {ck : Byte} :
    unmarshal o B = .ok (.fields seq ty len ck payload) ↔
      payload.length ≤ 127 ∧ B = marshal o seq ty payload ∧ len = payloadLength payload ∧
        ck = frameChecksum o seq ty payload := by
  constructor
  · intro h
    obtain ⟨b1, b2, p, hl, rfl, hv⟩ := unmarshal_eq_ok h
    injection hv with hseq hty hlen hck hp
    subst hseq hty hlen hck hp
    have hlen := payloadLength_eq_of_length hl
    refine ⟨by omega, ?_, hlen.symm, ?_⟩
    · rw [marshal, frameBytes, frameChecksum, hlen, headerByte1_fields, headerByte2_fields]
    · rw [frameChecksum, hlen, headerByte2_fields]
  · rintro ⟨hl, rfl, rfl, rfl⟩
    rw [marshal, unmarshal_frameBytes o seq ty _ hl, if_pos rfl]

/-- Marshalling loses nothing of fields within bounds. -/
theorem marshal_inj {o : FrameBitOrder} {seq seq' : BitVec 5} {ty ty' : BitVec 4} {payload payload' : Bytes}
    (hl : payload.length ≤ 127) (hl' : payload'.length ≤ 127)
    (h : marshal o seq ty payload = marshal o seq' ty' payload') : seq = seq' ∧ ty = ty' ∧ payload = payload' := by
  have hfields := unmarshal_eq_fields_iff.mpr ⟨hl, h.symm, rfl, rfl⟩
  rw [unmarshal_eq_fields_iff.mpr ⟨hl', rfl, rfl, rfl⟩] at hfields
  injection hfields with hv
  injection hv with hseq hty _ _ hp
  exact ⟨hseq.symm, hty.symm, hp.symm⟩

/-- The four tests of 40_frame_codec.md R80 over the whole string. -/
theorem unmarshal_eq_tests (o : FrameBitOrder) (B : Bytes) :
    unmarshal o B =
      if B.length < 4 then .failed .truncated
      else if byteAt B 0 ≠ marker then .failed .badMarker
      else if B.length ≠ 4 + (lengthField o (byteAt B 1)).toNat then .failed .truncated
      else if (lengthField o (byteAt B 1)).setWidth 8 ^^^ byteAt B 2 ^^^ (typeField o (byteAt B 2)).setWidth 8 ^^^
          xorBytes (slice B 4 B.length) ≠ byteAt B 3 then .failed .checksumMismatch
      else .ok (.fields (sequenceField o (byteAt B 1) (byteAt B 2)) (typeField o (byteAt B 2))
        (lengthField o (byteAt B 1)) (byteAt B 3) (slice B 4 B.length)) := by
  match B with
  | [] | [_] | [_, _] | [_, _, _] => rfl
  | m :: b1 :: b2 :: ck :: payload =>
    have hpayload : slice (m :: b1 :: b2 :: ck :: payload) 4 (4 + payload.length) = payload := by simp [slice]
    simp [unmarshal, checksum_eq, byteAt, hpayload, Nat.add_comm payload.length 4]

/-! ### FC.ENCODE, FC.CKSUM and FC.DECODE -/

/-- The bounds as the rules state their violation (40_frame_codec.md R75, R73). -/
theorem not_withinBounds_iff (seq ty : BitVec 8) (payload : Bytes) :
    ¬ withinBounds seq ty payload = true ↔ 31 < seq.toNat ∨ 15 < ty.toNat ∨ 127 < payload.length := by
  rw [withinBounds_iff]; omega

theorem fcEncode_of_withinBounds {seq ty : BitVec 8} {payload : Bytes} (h : withinBounds seq ty payload = true)
    (s : State) : exec (.fcEncode seq ty payload) s =
      .next (answered (.ok (.frame (marshal s.cfg.frameBitOrder (seq.setWidth 5) (ty.setWidth 4) payload))) s) := by
  rw [exec_fcEncode, if_pos h]

theorem fcEncode_of_not_withinBounds {seq ty : BitVec 8} {payload : Bytes} (h : ¬ withinBounds seq ty payload = true)
    (s : State) : exec (.fcEncode seq ty payload) s = .next (answered (.failed .invalidArgument) s) := by
  rw [exec_fcEncode, if_neg h]

theorem fcEncode_eq_frame_iff {s : State} {seq ty : BitVec 8} {payload F : Bytes} :
    exec (.fcEncode seq ty payload) s = .next (answered (.ok (.frame F)) s) ↔
      withinBounds seq ty payload = true ∧
        marshal s.cfg.frameBitOrder (seq.setWidth 5) (ty.setWidth 4) payload = F := by
  rw [exec_fcEncode, next_eq_next, answered_eq_answered]
  split
  · next hb => simp [hb]
  · next hb => simp [hb]

theorem fcDecode_eq_iff {s : State} {B : Bytes} {r : Response} :
    exec (.fcDecode B) s = .next (answered r s) ↔ unmarshal s.cfg.frameBitOrder B = r := by
  rw [exec_fcDecode, next_eq_next, answered_eq_answered]

/-! ### Operands in bytes

The host gives `seq` and `type` in a byte each (30_encoding.md R58); within bounds the byte holds the field. -/

theorem setWidth_setWidth_of_le_31 {seq : BitVec 8} (h : seq.toNat ≤ 31) : (seq.setWidth 5).setWidth 8 = seq :=
  BitVec.eq_of_toNat_eq (by simp; omega)

theorem setWidth_setWidth_of_le_15 {ty : BitVec 8} (h : ty.toNat ≤ 15) : (ty.setWidth 4).setWidth 8 = ty :=
  BitVec.eq_of_toNat_eq (by simp; omega)

theorem withinBounds_fields (seq : BitVec 5) (ty : BitVec 4) {payload : Bytes} (h : payload.length ≤ 127) :
    withinBounds (seq.setWidth 8) (ty.setWidth 8) payload = true :=
  (withinBounds_iff ..).mpr ⟨by simp; omega, by simp; omega, h⟩

/-- Settles O16: both directions are what unmarshals read against `marshal`, the bytes of the operands aside. -/
theorem frameRoundTrip : Obligations.FrameRoundTrip := by
  constructor
  · intro s t seq ty payload hcfg hseq hty hl
    have hb := (withinBounds_iff seq ty payload).mpr ⟨hseq, hty, hl⟩
    exact ⟨_, fcEncode_of_withinBounds hb s, fcDecode_eq_iff.mpr
      (hcfg ▸ unmarshal_eq_fields_iff.mpr ⟨hl, rfl, rfl, rfl⟩)⟩
  · intro s t B seq ty len ck payload hcfg h
    obtain ⟨hl, rfl, -, -⟩ := unmarshal_eq_fields_iff.mp (fcDecode_eq_iff.mp h)
    exact fcEncode_eq_frame_iff.mpr ⟨withinBounds_fields seq ty hl, by simp [hcfg]⟩

/-- Settles O17: the answer reads only the operands and FRAME_BIT_ORDER, and the frame decodes to the operands. -/
theorem fcEncodeIsInjective : Obligations.FcEncodeIsInjective := by
  constructor
  · intro s t seq ty payload hcfg
    exact ⟨_, exec_fcEncode s seq ty payload, hcfg ▸ exec_fcEncode t seq ty payload⟩
  · intro s seq ty seq' ty' payload payload' F h h'
    obtain ⟨hb, hF⟩ := fcEncode_eq_frame_iff.mp h
    obtain ⟨hb', hF'⟩ := fcEncode_eq_frame_iff.mp h'
    obtain ⟨hseq, hty, hl⟩ := (withinBounds_iff seq ty payload).mp hb
    obtain ⟨hseq', hty', hl'⟩ := (withinBounds_iff seq' ty' payload').mp hb'
    obtain ⟨eseq, ety, rfl⟩ := marshal_inj hl hl' (hF.trans hF'.symm)
    refine ⟨?_, ?_, rfl⟩
    · rw [← setWidth_setWidth_of_le_31 hseq, eseq, setWidth_setWidth_of_le_31 hseq']
    · rw [← setWidth_setWidth_of_le_15 hty, ety, setWidth_setWidth_of_le_15 hty']

/-! ### The header bytes by shifts (40_frame_codec.md R75, 30_encoding.md R46) -/

theorem append_eq_shifts {n m : Nat} (x : BitVec n) (y : BitVec m) :
    x ++ y = (x.setWidth (n + m) <<< m) ||| y.setWidth (n + m) :=
  (BitVec.setWidth_eq _).symm.trans BitVec.setWidth_append_eq_shiftLeft_setWidth_or

section
variable (seq : BitVec 5) (len : BitVec 7) (ty : BitVec 4)

theorem setWidth_seqLow : (seqLow seq).setWidth 8 = seq.setWidth 8 &&& 1#8 := by
  refine BitVec.eq_of_getLsbD_eq fun i hi => ?_
  interval_cases i <;> simp [seqLow]

theorem setWidth_seqHigh : (seqHigh seq).setWidth 8 = seq.setWidth 8 >>> 1 := by
  refine BitVec.eq_of_getLsbD_eq fun i hi => ?_
  interval_cases i <;> simp [seqHigh]

theorem headerByte1_lsbFirst_eq_shifts :
    headerByte1 .lsbFirst seq len = ((seq.setWidth 8 &&& 1#8) <<< 7) ||| len.setWidth 8 :=
  setWidth_seqLow seq ▸ append_eq_shifts (seqLow seq) len

theorem headerByte1_msbFirst_eq_shifts :
    headerByte1 .msbFirst seq len = (len.setWidth 8 <<< 1) ||| (seq.setWidth 8 &&& 1#8) :=
  setWidth_seqLow seq ▸ append_eq_shifts len (seqLow seq)

theorem headerByte2_lsbFirst_eq_shifts :
    headerByte2 .lsbFirst seq ty = (ty.setWidth 8 <<< 4) ||| (seq.setWidth 8 >>> 1) :=
  setWidth_seqHigh seq ▸ append_eq_shifts ty (seqHigh seq)

theorem headerByte2_msbFirst_eq_shifts :
    headerByte2 .msbFirst seq ty = ((seq.setWidth 8 >>> 1) <<< 4) ||| ty.setWidth 8 :=
  setWidth_seqHigh seq ▸ append_eq_shifts (seqHigh seq) ty

end

theorem setWidth_payloadLength {payload : Bytes} (h : payload.length ≤ 127) :
    (payloadLength payload).setWidth 8 = BitVec.ofNat 8 payload.length :=
  BitVec.eq_of_toNat_eq (by simp [payloadLength_toNat h])

/-- The checksum over the operands' bytes (40_frame_codec.md R70, R73). -/
theorem frameChecksum_of_withinBounds {seq ty : BitVec 8} {payload : Bytes} (h : withinBounds seq ty payload = true)
    (o : FrameBitOrder) :
    frameChecksum o (seq.setWidth 5) (ty.setWidth 4) payload =
      BitVec.ofNat 8 payload.length ^^^ headerByte2 o (seq.setWidth 5) (ty.setWidth 4) ^^^ ty ^^^ xorBytes payload := by
  obtain ⟨-, hty, hl⟩ := (withinBounds_iff seq ty payload).mp h
  rw [frameChecksum, checksum_eq, setWidth_payloadLength hl, setWidth_setWidth_of_le_15 hty]

/-- Settles O12: the header bytes as shifts, one bit order at a time. -/
theorem fcEncodeResult : Obligations.FcEncodeResult := by
  intro s seq ty payload
  dsimp only
  by_cases hb : withinBounds seq ty payload = true
  · rw [fcEncode_of_withinBounds hb, if_neg (mt (not_withinBounds_iff ..).mpr (not_not.mpr hb)), marshal, frameBytes,
      frameChecksum_of_withinBounds hb]
    obtain ⟨hseq, hty, hl⟩ := (withinBounds_iff seq ty payload).mp hb
    cases s.cfg.frameBitOrder with
    | lsbFirst =>
      rw [headerByte1_lsbFirst_eq_shifts, headerByte2_lsbFirst_eq_shifts, setWidth_setWidth_of_le_31 hseq,
        setWidth_setWidth_of_le_15 hty, setWidth_payloadLength hl]
      rfl
    | msbFirst =>
      rw [headerByte1_msbFirst_eq_shifts, headerByte2_msbFirst_eq_shifts, setWidth_setWidth_of_le_31 hseq,
        setWidth_setWidth_of_le_15 hty, setWidth_payloadLength hl]
      rfl
  · rw [fcEncode_of_not_withinBounds hb, if_pos ((not_withinBounds_iff ..).mp hb)]

/-- Settles O13: FC.CKSUM and FC.ENCODE test the same bounds, and the frame's byte 3 is the checksum. -/
theorem fcCksumResult : Obligations.FcCksumResult := by
  intro s seq ty payload
  rw [exec_fcCksum]
  split
  · next hout =>
    have hb := (not_withinBounds_iff ..).mpr hout
    rw [if_neg hb]
    exact ⟨rfl, fcEncode_of_not_withinBounds hb s⟩
  · next hin =>
    have hb := not_not.mp (mt (not_withinBounds_iff ..).mp hin)
    rw [if_pos hb]
    exact ⟨_, fcEncode_of_withinBounds hb s, rfl, frameChecksum_of_withinBounds hb _⟩

/-- Settles O14: the four tests, the fields read in either bit order. -/
theorem fcDecodeResult : Obligations.FcDecodeResult := by
  intro s B
  dsimp only
  rw [exec_fcDecode, unmarshal_eq_tests]
  cases s.cfg.frameBitOrder with
  | lsbFirst => rfl
  | msbFirst => rfl

/-! ### Corners of FC.DECODE (40_frame_codec.md R81) -/

theorem unmarshal_least (o : FrameBitOrder) :
    unmarshal o [0x7E#8, 0x00#8, 0x00#8, 0x00#8] = .ok (.fields 0#5 0#4 0#7 0x00#8 []) := by
  cases o <;> rfl

/-- The length field holds at most 127, so the length test fails if the marker is there. -/
theorem unmarshal_of_long (o : FrameBitOrder) {B : Bytes} (h : 131 < B.length) :
    unmarshal o B = .failed (if byteAt B 0 = marker then .truncated else .badMarker) := by
  have hlen := (lengthField o (byteAt B 1)).isLt
  rw [unmarshal_eq_tests, if_neg (by omega)]
  by_cases hm : byteAt B 0 = marker
  · rw [if_neg (not_not.mpr hm), if_pos (by omega), if_pos hm]
  · rw [if_pos hm, if_neg hm]

/-- A good frame's length field gives its own length, not that of a longer string. -/
theorem unmarshal_append_of_ok {o : FrameBitOrder} {B T : Bytes} {v : Values} (h : unmarshal o B = .ok v)
    (hT : T ≠ []) : unmarshal o (B ++ T) = .failed .truncated := by
  obtain ⟨b1, b2, payload, hl, rfl, -⟩ := unmarshal_eq_ok h
  have hpos := List.length_pos_iff.mpr hT
  simp only [List.cons_append, unmarshal]
  rw [if_neg (not_not.mpr rfl), if_pos (by rw [List.length_append]; omega)]

/-- Settles O15: the least frame, the long strings, the trailing bytes and the `ck` value, each by its lemma. -/
theorem fcDecodeCorners : Obligations.FcDecodeCorners := by
  refine ⟨fun s => ?_, fun s B hB => ?_, fun s B T v h hT => ?_, fun s B seq ty len ck payload h => ?_⟩
  · exact fcDecode_eq_iff.mpr (unmarshal_least _)
  · exact fcDecode_eq_iff.mpr (unmarshal_of_long _ hB)
  · exact fcDecode_eq_iff.mpr (unmarshal_append_of_ok (fcDecode_eq_iff.mp h) hT)
  · obtain ⟨-, rfl, -, rfl⟩ := unmarshal_eq_fields_iff.mp (fcDecode_eq_iff.mp h)
    rfl

end Sys2Proof.Proofs.FrameCodec
end

section
/-! The frame's checksum (40_frame_codec.md R70, R71): it is linear over exclusive or, so damage shows exactly when the
flips of the folded terms do not cancel. -/

namespace Sys2Proof.Proofs.FrameChecksum

open Machine FrameCodec

/-! ### The payload -/

theorem payloadLength_congr {p q : Bytes} (h : p.length = q.length) : payloadLength p = payloadLength q :=
  congrArg (BitVec.ofNat 7) h

/-- Exclusive or does not see the order of the bytes (40_frame_codec.md R71 (b)). -/
theorem xorBytes_perm {p q : Bytes} (h : p.Perm q) : xorBytes p = xorBytes q :=
  h.foldl_eq' (fun x _ y _ c => by ac_rfl) 0x00#8

theorem frameChecksum_perm (o : FrameBitOrder) (seq : BitVec 5) (ty : BitVec 4) {p q : Bytes} (h : p.Perm q) :
    frameChecksum o seq ty p = frameChecksum o seq ty q := by
  rw [frameChecksum, frameChecksum, checksum_eq, checksum_eq, payloadLength_congr h.length_eq, xorBytes_perm h]

/-! ### A flip of bits in a folded term flips them in the checksum -/

section
variable (len e7 : BitVec 7) (b2 d x : Byte) (ty e4 : BitVec 4) (A C : Bytes)

theorem checksum_flip_payload :
    checksum len b2 ty (A ++ (x ^^^ d) :: C) = checksum len b2 ty (A ++ x :: C) ^^^ d := by
  simp only [checksum_eq, xorBytes_append, xorBytes_cons]; ac_rfl

theorem checksum_flip_byte2 : checksum len (b2 ^^^ d) ty A = checksum len b2 ty A ^^^ d := by
  simp only [checksum_eq]; ac_rfl

theorem checksum_flip_length :
    checksum (len ^^^ e7) b2 ty A = checksum len b2 ty A ^^^ e7.setWidth 8 := by
  simp only [checksum_eq, BitVec.setWidth_xor]; ac_rfl

theorem checksum_flip_type :
    checksum len b2 (ty ^^^ e4) A = checksum len b2 ty A ^^^ e4.setWidth 8 := by
  simp only [checksum_eq, BitVec.setWidth_xor]; ac_rfl

end

/-- The same flip twice is none. -/
theorem xor_xor_cancel_right (c d : Byte) : c ^^^ d ^^^ d = c := by
  rw [BitVec.xor_assoc, BitVec.xor_self, BitVec.xor_zero]

/-- With every other term the same, the checksums differ where the changed bytes do (40_frame_codec.md R71 (a)). -/
theorem frameChecksum_replace_ne (o : FrameBitOrder) (seq : BitVec 5) (ty : BitVec 4) (A C : Bytes) {x y : Byte}
    (h : x ≠ y) : frameChecksum o seq ty (A ++ x :: C) ≠ frameChecksum o seq ty (A ++ y :: C) := by
  have hlen : payloadLength (A ++ x :: C) = payloadLength (A ++ y :: C) := payloadLength_congr (by simp)
  simp only [frameChecksum, hlen, checksum_eq, xorBytes_append, xorBytes_cons, ne_eq,
    BitVec.xor_right_inj, BitVec.xor_left_inj]
  exact h

/-! ### Sequence bit 0 (40_frame_codec.md R71 (d)) -/

/-- The bit of byte 1 that holds `seq[0]` (30_encoding.md R46). -/
def sequenceBit0 : FrameBitOrder → Byte
  | .lsbFirst => 0x80#8
  | .msbFirst => 0x01#8

theorem headerByte1_flip_seqLow (o : FrameBitOrder) (seq : BitVec 5) (len : BitVec 7) :
    headerByte1 o (seq ^^^ 1#5) len = headerByte1 o seq len ^^^ sequenceBit0 o := by
  have hlow : seqLow (seq ^^^ 1#5) = seqLow seq ^^^ 1#1 := BitVec.extractLsb'_xor
  cases o with
  | lsbFirst =>
    have hflip : (seqLow seq ^^^ 1#1) ++ (len ^^^ 0#7) = (seqLow seq ++ len) ^^^ (1#1 ++ 0#7) := BitVec.xor_append.symm
    rw [BitVec.xor_zero, ← hlow] at hflip
    exact hflip
  | msbFirst =>
    have hflip : (len ^^^ 0#7) ++ (seqLow seq ^^^ 1#1) = (len ++ seqLow seq) ^^^ (0#7 ++ 1#1) := BitVec.xor_append.symm
    rw [BitVec.xor_zero, ← hlow] at hflip
    exact hflip

theorem headerByte2_flip_seqLow (o : FrameBitOrder) (seq : BitVec 5) (ty : BitVec 4) :
    headerByte2 o (seq ^^^ 1#5) ty = headerByte2 o seq ty := by
  have hhigh : seqHigh (seq ^^^ 1#5) = seqHigh seq := BitVec.extractLsb'_xor.trans BitVec.xor_zero
  cases o with
  | lsbFirst => rw [headerByte2, hhigh]; rfl
  | msbFirst => rw [headerByte2, hhigh]; rfl

theorem unmarshal_flip_seqLow {o : FrameBitOrder} {b1 b2 ck : Byte} {payload : Bytes} {seq : BitVec 5} {ty : BitVec 4}
    {len : BitVec 7}
    (h : unmarshal o (marker :: b1 :: b2 :: ck :: payload) = .ok (.fields seq ty len ck payload)) :
    unmarshal o (marker :: (b1 ^^^ sequenceBit0 o) :: b2 :: ck :: payload)
      = .ok (.fields (seq ^^^ 1#5) ty len ck payload) := by
  obtain ⟨hl, hB, hlen, hck⟩ := unmarshal_eq_fields_iff.mp h
  have hsame : frameChecksum o (seq ^^^ 1#5) ty payload = frameChecksum o seq ty payload := by
    rw [frameChecksum, headerByte2_flip_seqLow, frameChecksum]
  refine unmarshal_eq_fields_iff.mpr ⟨hl, ?_, hlen, hck.trans hsame.symm⟩
  injection hB with _ hB
  injection hB with hb1 hB
  rw [marshal, frameBytes, headerByte1_flip_seqLow, headerByte2_flip_seqLow, hsame, hb1, hB]

/-! ### The value by halves (40_frame_codec.md R71 (e)) -/

theorem append_xor_setWidth {n m : Nat} (x : BitVec n) (y : BitVec m) :
    (x ++ y) ^^^ y.setWidth (n + m) = x.setWidth (n + m) <<< m := by
  refine BitVec.eq_of_getLsbD_eq fun i hi => ?_
  rw [BitVec.getLsbD_xor, BitVec.getLsbD_append, BitVec.getLsbD_setWidth, BitVec.getLsbD_shiftLeft,
    BitVec.getLsbD_setWidth]
  by_cases h : i < m
  · simp [h, hi]
  · have hsub : i - m < n + m := by omega
    have hy : y.getLsbD i = false := y.getLsbD_of_ge i (Nat.le_of_not_lt h)
    simp [h, hi, hsub, hy]

theorem frameChecksum_lsbFirst_high (seq : BitVec 5) (ty : BitVec 4) (p : Bytes) :
    (frameChecksum .lsbFirst seq ty p).extractLsb 7 4
      = ((payloadLength p).extractLsb 6 4).setWidth 4 ^^^ ty ^^^ (xorBytes p).extractLsb 7 4 := by
  have hlen : ((payloadLength p).setWidth 8).extractLsb 7 4 = ((payloadLength p).extractLsb 6 4).setWidth 4 := by
    refine BitVec.eq_of_getLsbD_eq fun i hi => ?_
    interval_cases i <;> simp
  have hb2 : (headerByte2 .lsbFirst seq ty).extractLsb 7 4 = ty := typeField_headerByte2 .lsbFirst seq ty
  have hty : (ty.setWidth 8).extractLsb 7 4 = 0#4 := by
    refine BitVec.eq_of_getLsbD_eq fun i hi => ?_
    interval_cases i <;> simp
  rw [frameChecksum, checksum_eq, BitVec.extractLsb_xor, BitVec.extractLsb_xor, BitVec.extractLsb_xor, hlen, hb2, hty,
    BitVec.xor_zero]

theorem frameChecksum_lsbFirst_low (seq : BitVec 5) (ty : BitVec 4) (p : Bytes) :
    (frameChecksum .lsbFirst seq ty p).extractLsb 3 0
      = (payloadLength p).extractLsb 3 0 ^^^ seq.extractLsb 4 1 ^^^ ty ^^^ (xorBytes p).extractLsb 3 0 := by
  have hlen : ((payloadLength p).setWidth 8).extractLsb 3 0 = (payloadLength p).extractLsb 3 0 :=
    BitVec.extractLsb'_setWidth_of_le (by decide)
  have hb2 : (headerByte2 .lsbFirst seq ty).extractLsb 3 0 = seq.extractLsb 4 1 := BitVec.extractLsb'_append_eq_right
  have hty : (ty.setWidth 8).extractLsb 3 0 = ty :=
    (BitVec.extractLsb'_setWidth_of_le (by decide)).trans BitVec.extractLsb'_eq_self
  rw [frameChecksum, checksum_eq, BitVec.extractLsb_xor, BitVec.extractLsb_xor, BitVec.extractLsb_xor, hlen, hb2, hty]

/-- With MSB_FIRST the type stands in the low half of byte 2, where the fold takes it a second time. -/
theorem frameChecksum_msbFirst (seq : BitVec 5) (ty : BitVec 4) (p : Bytes) :
    frameChecksum .msbFirst seq ty p
      = (payloadLength p).setWidth 8 ^^^ ((seq.extractLsb 4 1).setWidth 8 <<< 4) ^^^ xorBytes p := by
  have hb2 : headerByte2 .msbFirst seq ty ^^^ ty.setWidth 8 = (seq.extractLsb 4 1).setWidth 8 <<< 4 :=
    append_xor_setWidth (seqHigh seq) ty
  rw [frameChecksum, checksum_eq, BitVec.xor_assoc (_ : Byte) (headerByte2 ..), hb2]

/-- Settles O18: (a) and (b) by the payload's exclusive or, (c) by two flips that cancel, (d) by the frame of the
flipped sequence, (e) by the terms of the checksum. -/
theorem checksumDetectsAndMisses : Obligations.ChecksumDetectsAndMisses := by
  refine ⟨fun o seq ty A C x y h => frameChecksum_replace_ne o seq ty A C h,
    fun o seq ty p q h => frameChecksum_perm o seq ty h, ?_, ?_,
    fun seq ty p => ⟨frameChecksum_lsbFirst_high seq ty p, frameChecksum_lsbFirst_low seq ty p,
      frameChecksum_msbFirst seq ty p⟩⟩
  · intro len e7 b2 d x y ty e4 A C D
    have h47 : (e4.setWidth 7).setWidth 8 = e4.setWidth 8 := BitVec.setWidth_setWidth (by decide)
    refine ⟨?_, ?_, ?_, ?_, ?_, ?_, ?_⟩
    · rw [checksum_flip_payload, List.append_assoc, List.cons_append, checksum_flip_payload, xor_xor_cancel_right,
        List.append_assoc, List.cons_append]
    · rw [checksum_flip_byte2, checksum_flip_payload, xor_xor_cancel_right]
    · rw [checksum_flip_length, checksum_flip_payload, xor_xor_cancel_right]
    · rw [checksum_flip_type, checksum_flip_payload, xor_xor_cancel_right]
    · rw [checksum_flip_length, checksum_flip_byte2, xor_xor_cancel_right]
    · rw [checksum_flip_length, checksum_flip_type, h47, xor_xor_cancel_right]
    · rw [checksum_flip_byte2, checksum_flip_type, xor_xor_cancel_right]
  · intro s b1 b2 ck payload seq ty len h
    have hflip := unmarshal_flip_seqLow (fcDecode_eq_iff.mp h)
    refine fcDecode_eq_iff.mpr ?_
    generalize s.cfg.frameBitOrder = o at hflip ⊢
    cases o with
    | lsbFirst => exact hflip
    | msbFirst => exact hflip

/-! ### Damage at the decoder (40_frame_codec.md R81 (g)) -/

/-- The four bytes before a payload that decodes head the frame of any payload of that length. -/
theorem append_eq_frameBytes {o : FrameBitOrder} {h payload q : Bytes} {seq : BitVec 5} {ty : BitVec 4}
    {len : BitVec 7} {ck : Byte} (hd : unmarshal o (h ++ payload) = .ok (.fields seq ty len ck payload))
    (hq : q.length = payload.length) : h ++ q = frameBytes o seq ty ck q := by
  obtain ⟨-, hB, -, rfl⟩ := unmarshal_eq_fields_iff.mp hd
  obtain rfl : h = [marker, headerByte1 o seq (payloadLength payload), headerByte2 o seq ty,
      frameChecksum o seq ty payload] := List.append_cancel_right hB
  rw [frameBytes, payloadLength_congr hq]
  rfl

/-- With another payload of the same length only the checksum is left to test. -/
theorem fcDecode_of_payload_replaced {s : State} {h payload q : Bytes} {seq : BitVec 5} {ty : BitVec 4} {len : BitVec 7}
    {ck : Byte} (hd : exec (.fcDecode (h ++ payload)) s = .next (answered (.ok (.fields seq ty len ck payload)) s))
    (hq : q.length = payload.length) :
    exec (.fcDecode (h ++ q)) s = .next (answered
      (if frameChecksum s.cfg.frameBitOrder seq ty q = frameChecksum s.cfg.frameBitOrder seq ty payload then
        .ok (.fields seq ty len ck q) else .failed .checksumMismatch) s) := by
  have hu := fcDecode_eq_iff.mp hd
  obtain ⟨hl, -, rfl, rfl⟩ := unmarshal_eq_fields_iff.mp hu
  rw [append_eq_frameBytes hu hq, exec_fcDecode, unmarshal_frameBytes _ seq ty _ (hq ▸ hl), payloadLength_congr hq]

/-- Settles O19: the changed payload's checksum differs, by R71 (a); the reordered one's is the same, by R71 (b). -/
theorem damagedFramesAtTheDecoder : Obligations.DamagedFramesAtTheDecoder := by
  intro s h seq ty len ck payload _ hd
  constructor
  · rintro A C x y rfl hxy
    rw [fcDecode_of_payload_replaced hd (by simp), if_neg (frameChecksum_replace_ne _ seq ty A C hxy.symm)]
  · intro q hq
    rw [fcDecode_of_payload_replaced hd hq.length_eq.symm, if_pos (frameChecksum_perm _ seq ty hq.symm)]

end Sys2Proof.Proofs.FrameChecksum
end

section
/-! LengthMismatch (40_frame_codec.md R82): a result code that no operation lists. -/

namespace Sys2Proof.Proofs.LengthMismatch

open Machine Safety Answers

theorem not_listedResponse_lengthMismatch (i : Instr) : listedResponse i (.failed .lengthMismatch) = false := by
  cases i <;> rfl

/-- Settles O20: what an instruction answers is listed for it (O45), and LengthMismatch is listed for none. -/
theorem lengthMismatchNeverReturned : Obligations.LengthMismatchNeverReturned := by
  refine ⟨fun i s t h hmismatch => ?_, rfl⟩
  obtain ⟨u, r, hexec, hr, hlisted⟩ := everyInstructionAnswers i s
  obtain rfl := next_eq_next.mp (h.symm.trans hexec)
  obtain rfl := Option.some.inj (hmismatch.symm.trans hr)
  rw [not_listedResponse_lengthMismatch] at hlisted
  exact Bool.false_ne_true hlisted

end Sys2Proof.Proofs.LengthMismatch
end

section
/-! The IPv4 header checksum (41_link_headers.md R90 to R92): the end-around carry keeps the sum modulo 65535, so the
checksum in its place makes the header sum to all ones. -/

namespace Sys2Proof.Proofs.HeaderChecksum

open Machine

/-- One round of end-around carry (41_link_headers.md R90). -/
def endAroundCarry (x : Nat) : Nat := x % 65536 + x / 65536

/-- Folding is a number of rounds of carry within those allowed, each of a sum that is over 16 bits. -/
theorem foldCarry_eq_iterate (rounds x : Nat) :
    ∃ k ≤ rounds, foldCarry rounds x = endAroundCarry^[k] x ∧ ∀ j < k, 0xFFFF < endAroundCarry^[j] x := by
  induction rounds generalizing x with
  | zero => exact ⟨0, le_rfl, rfl, by simp⟩
  | succ rounds ih =>
    by_cases hx : 0xFFFF < x
    · obtain ⟨k, hk, hfold, hneeded⟩ := ih (endAroundCarry x)
      refine ⟨k + 1, Nat.succ_le_succ hk, ?_, fun j hj => ?_⟩
      · rw [foldCarry, if_pos hx]
        exact hfold
      · cases j with
        | zero => exact hx
        | succ j => exact hneeded j (Nat.lt_of_succ_lt_succ hj)
    · exact ⟨0, Nat.zero_le _, by rw [foldCarry, if_neg hx]; rfl, by simp⟩

theorem wordSum_eq (H : Bytes) :
    wordSum H = memRead H 0 2 + memRead H 2 2 + memRead H 4 2 + memRead H 6 2 + memRead H 8 2 + memRead H 10 2
      + memRead H 12 2 + memRead H 14 2 + memRead H 16 2 + memRead H 18 2 := by
  simp only [wordSum, List.range, List.range.loop, List.map, List.sum_cons, List.sum_nil, Nat.reduceMul]
  omega

/-- The folded sum is in 16 bits, is the sum modulo 65535, and is 0 only if the sum is (41_link_headers.md R91). -/
theorem foldedSum_spec (H : Bytes) :
    foldedSum H ≤ 65535 ∧ foldedSum H % 65535 = wordSum H % 65535 ∧ (foldedSum H = 0 ↔ wordSum H = 0) :=
  foldCarry_spec ((wordSum_le H).trans (by decide))

theorem ipck_toNat (H : Bytes) : (ipck H).toNat = 65535 - foldedSum H := by
  have hle := (foldedSum_spec H).1
  rw [ipck, BitVec.toNat_not, BitVec.toNat_ofNat]
  omega

/-- Settles O23: the rounds that folding takes, which R91 bounds by two. -/
theorem ipckIsTheInternetChecksum : Obligations.IpckIsTheInternetChecksum := by
  intro H _
  dsimp only
  rw [← wordSum_eq]
  obtain ⟨k, hk, hfold, hneeded⟩ := foldCarry_eq_iterate 2 (wordSum H)
  have hle : endAroundCarry^[k] (wordSum H) ≤ 0xFFFF := hfold ▸ (foldedSum_spec H).1
  exact ⟨k, hk, hle, hneeded, by rw [ipck, foldedSum, hfold]; rfl⟩

/-! ### The built header -/

section
variable (c : Config) (n : Nat) (src dst : Ip)

/-- The checksum is put in a word that was zero; the nine other words stay. -/
theorem wordSum_ipHeader :
    wordSum (ipHeader c n src dst) = wordSum (ipHeaderZero c n src dst) + (ipck (ipHeaderZero c n src dst)).toNat := by
  have hzero : memRead (ipHeaderZero c n src dst) 10 2 = 0 := rfl
  have hput : memRead (ipHeader c n src dst) 10 2 = (ipck (ipHeaderZero c n src dst)).toNat := bigEndian_be16 _
  have hkept : ∀ off ∈ [0, 2, 4, 6, 8, 12, 14, 16, 18],
      memRead (ipHeader c n src dst) off 2 = memRead (ipHeaderZero c n src dst) off 2 := by
    simp only [List.mem_cons, List.not_mem_nil, or_false, forall_eq_or_imp, forall_eq]
    exact ⟨rfl, rfl, rfl, rfl, rfl, rfl, rfl, rfl, rfl⟩
  simp only [List.mem_cons, List.not_mem_nil, or_false, forall_eq_or_imp, forall_eq] at hkept
  obtain ⟨h0, h2, h4, h6, h8, h12, h14, h16, h18⟩ := hkept
  rw [wordSum_eq, wordSum_eq, hzero, hput, h0, h2, h4, h6, h8, h12, h14, h16, h18]
  omega

/-- The first word holds version and header length (30_encoding.md R51), so the sum is not 0. -/
theorem wordSum_ipHeaderZero_pos : 0 < wordSum (ipHeaderZero c n src dst) := by
  have hfirst : memRead (ipHeaderZero c n src dst) 0 2 = 0x45 * 256 + c.ipTos.toNat := rfl
  rw [wordSum_eq, hfirst]
  omega

theorem foldedSum_ipHeaderZero_ne_zero : foldedSum (ipHeaderZero c n src dst) ≠ 0 :=
  (foldedSum_spec _).2.2.not.mpr (wordSum_ipHeaderZero_pos c n src dst).ne'

/-- With its checksum the header sums to a positive multiple of 65535 (41_link_headers.md R92 (a)). -/
theorem foldedSum_ipHeader : foldedSum (ipHeader c n src dst) = 0xFFFF := by
  obtain ⟨hle, hmod, hzero⟩ := foldedSum_spec (ipHeader c n src dst)
  obtain ⟨hle', hmod', -⟩ := foldedSum_spec (ipHeaderZero c n src dst)
  have hpos := wordSum_ipHeaderZero_pos c n src dst
  rw [wordSum_ipHeader, ipck_toNat] at hmod hzero
  omega

/-- Only a sum of 0 has the checksum 0xFFFF (41_link_headers.md R92 (b)). -/
theorem ipck_ipHeaderZero_ne_allOnes : ipck (ipHeaderZero c n src dst) ≠ 0xFFFF#16 := by
  intro h
  have hck : 65535 - foldedSum (ipHeaderZero c n src dst) = 65535 := (ipck_toNat _).symm.trans (congrArg BitVec.toNat h)
  have hne := foldedSum_ipHeaderZero_ne_zero c n src dst
  omega

theorem slice_ipHeader_checksum :
    slice (ipHeader c n src dst) 10 12 = be16 (ipck (ipHeaderZero c n src dst)) := rfl

end

/-- Settles O24: the three facts above hold for every frame length; the example of R92 (c) is computed. -/
theorem builtHeaderSumsToAllOnes : Obligations.BuiltHeaderSumsToAllOnes := by
  have hck : ipck (ipHeaderZero standardConfig 4 0x0A0066CD#32 0x0A000001#32) = 0x0000#16 := rfl
  refine ⟨fun c n src dst _ => ⟨foldedSum_ipHeader c n src dst, foldedSum_ipHeaderZero_ne_zero c n src dst,
    ipck_ipHeaderZero_ne_allOnes c n src dst⟩, rfl, hck, ?_⟩
  rw [slice_ipHeader_checksum, hck]
  rfl

end Sys2Proof.Proofs.HeaderChecksum
end

section
/-! LT.BUILD (41_link_headers.md R95 to R97): its three answers, and the addresses of the packet. -/

namespace Sys2Proof.Proofs.HeaderBuilder

open Machine

/-- Settles O25: the packet is written out as `buildPacket` defines it. -/
theorem ltBuildResult : Obligations.LtBuildResult := fun s F => exec_ltBuild s F

/-- When LT.BUILD answers a packet, and which. -/
theorem ltBuild_eq_packet_iff {s : State} {F P : Bytes} :
    exec (.ltBuild F) s = .next (answered (.ok (.packet P)) s) ↔
      localValid s.status = true ∧ peerValid s.status = true ∧ F.length ≤ 131 ∧ P = buildPacket s F := by
  constructor
  · intro h
    rw [exec_ltBuild, next_eq_next, answered_eq_answered] at h
    split_ifs at h with hv hF
    simp only [not_or, Bool.not_eq_false] at hv
    injection h with h
    injection h with h
    exact ⟨hv.1, hv.2, Nat.not_lt.mp hF, h.symm⟩
  · rintro ⟨hl, hp, hF, rfl⟩
    exact Memory.ltBuild_of_configured hl hp hF

section
variable {s : State}

theorem destinationMac_of_known (h : peerMacValid s.status = true) : destinationMac s = s.peerMac := by
  rw [destinationMac, if_pos h]

theorem destinationMac_of_unknown (h : peerMacValid s.status = false) : destinationMac s = s.cfg.macBroadcast := by
  rw [destinationMac, h]
  rfl

variable (s) (F : Bytes)

theorem slice_buildPacket_destinationMac : slice (buildPacket s F) 0 6 = mac6 (destinationMac s) := rfl

theorem slice_buildPacket_destinationIp : slice (buildPacket s F) 30 34 = be32 s.peerIp := rfl

end

/-- Settles O27: the packet's first field is `destinationMac`, in both cases of PEER_MAC_VALID. -/
theorem broadcastWhenPeerMacUnknown : Obligations.BroadcastWhenPeerMacUnknown := by
  intro s F P h
  obtain ⟨-, -, -, rfl⟩ := ltBuild_eq_packet_iff.mp h
  rw [slice_buildPacket_destinationMac]
  exact ⟨fun hm => by rw [destinationMac_of_known hm], fun hm => by rw [destinationMac_of_unknown hm],
    slice_buildPacket_destinationIp s F, rfl⟩

end Sys2Proof.Proofs.HeaderBuilder
end

section
/-! LT.PARSE (41_link_headers.md R100 to R107): its three answers, which bytes the filter looks at, and what it makes of the
bytes after the UDP length. -/

namespace Sys2Proof.Proofs.HeaderParser

open Machine

/-! ### The three answers -/

section
variable {s : State} {P : Bytes}

theorem ltParse_of_not_localValid (hl : localValid s.status = false) :
    exec (.ltParse P) s = .next (answered (.failed .notConfigured) s) := by
  simp [exec_ltParse, hl]

theorem ltParse_of_rejected (hl : localValid s.status = true) (ha : ¬ accepts s P = true) :
    exec (.ltParse P) s = .next (answered (.failed .discard) s) := by
  rw [exec_ltParse, if_pos hl, if_neg ha]

theorem ltParse_of_accepted (hl : localValid s.status = true) (ha : accepts s P = true) :
    exec (.ltParse P) s = .next (answered
      (.ok (.parsed (packetFrame P) (sourceMac P) (sourceIp P) (sourcePort P))) (learnPeer P s)) := by
  rw [exec_ltParse, if_pos hl, if_pos ha]

theorem ltParse_eq_discard_iff :
    exec (.ltParse P) s = .next (answered (.failed .discard) s) ↔
      localValid s.status = true ∧ ¬ accepts s P = true := by
  refine ⟨fun h => ?_, fun ⟨hl, ha⟩ => ltParse_of_rejected hl ha⟩
  rw [exec_ltParse] at h
  split_ifs at h with hl ha
  · cases congrArg State.response (next_eq_next.mp h)
  · exact ⟨hl, ha⟩
  · cases congrArg State.response (next_eq_next.mp h)

theorem accepted_of_ltParse_eq_ok {t : State} {v : Values}
    (h : exec (.ltParse P) s = .next (answered (.ok v) t)) : accepts s P = true := by
  rw [exec_ltParse] at h
  split_ifs at h with hl ha
  · exact ha
  · cases congrArg State.response (next_eq_next.mp h)
  · cases congrArg State.response (next_eq_next.mp h)

end

/-- Both valid bits of the peer at once (41_link_headers.md R107). -/
theorem setPeerMacValid_setPeerValid (st : BitVec 3) : setPeerMacValid (setPeerValid st) = st ||| 0b110#3 :=
  BitVec.or_assoc st 0b010#3 0b100#3

/-- Settles O28: each case is an answer above, the filter and the learning written out. -/
theorem ltParseResult : Obligations.LtParseResult := by
  intro s P
  dsimp only
  rw [← accepts_iff]
  refine ⟨ltParse_of_not_localValid, ltParse_of_rejected, fun hl ha => ?_⟩
  rw [ltParse_of_accepted hl ha, learnPeer_eq, setPeerMacValid_setPeerValid]
  cases s.cfg.learnPeerMac with
  | true => rfl
  | false => rfl

/-! ### The bytes that the filter looks at -/

/-- Strings of one length that agree on the bytes of a field hold the same field. -/
theorem memRead_congr {P Q : Bytes} {off n : Nat} (hlen : P.length = Q.length)
    (h : ∀ k, off ≤ k → k < off + n → byteAt P k = byteAt Q k) : memRead P off n = memRead Q off n := by
  refine congrArg bigEndian (List.ext_getElem (by simp [slice, hlen]) fun i hi _ => ?_)
  simp only [slice, List.length_take, List.length_drop] at hi
  have hbyte := h (off + i) (by omega) (by omega)
  rw [byteAt, byteAt, List.getD_eq_getElem _ _ (by omega), List.getD_eq_getElem _ _ (by omega)] at hbyte
  simpa [slice] using hbyte

/-- The filter looks at the length and at the bytes 41_link_headers.md R100 names (R102). -/
theorem accepts_eq_of_tested_bytes {s : State} {P Q : Bytes} (hlen : P.length = Q.length)
    (h : ∀ k ∈ [12, 13, 23, 30, 31, 32, 33, 36, 37, 38, 39], byteAt P k = byteAt Q k) :
    accepts s P = accepts s Q := by
  have hfield : ∀ off n, (∀ k, off ≤ k → k < off + n → k ∈ [12, 13, 23, 30, 31, 32, 33, 36, 37, 38, 39]) →
      memRead P off n = memRead Q off n :=
    fun off n hmem => memRead_congr hlen fun k hlo hhi => h k (hmem k hlo hhi)
  have htype := hfield 12 2 (by simp; omega)
  have hip := hfield 30 4 (by simp; omega)
  have hport := hfield 36 2 (by simp; omega)
  have hudp := hfield 38 2 (by simp; omega)
  rw [accepts, accepts, udpLength, udpLength, hlen, htype, h 23 (by decide), hip, hport, hudp]

/-- Settles O29: LT.PARSE discards what the filter rejects. -/
theorem untestedHeaderBytesNeverDiscard : Obligations.UntestedHeaderBytesNeverDiscard := by
  intro s P Q hlen h
  rw [ltParse_eq_discard_iff, ltParse_eq_discard_iff, accepts_eq_of_tested_bytes hlen h]

/-! ### Trailing bytes -/

theorem byteAt_append_left {A : Bytes} (B : Bytes) {k : Nat} (h : k < A.length) : byteAt (A ++ B) k = byteAt A k :=
  List.getD_append A B _ k h

section
variable {P : Bytes} (T : Bytes)

theorem udpLength_append (h : 42 ≤ P.length) : udpLength (P ++ T) = udpLength P :=
  memRead_append_left (by omega)

theorem sourceMac_append (h : 42 ≤ P.length) : sourceMac (P ++ T) = sourceMac P := by
  rw [sourceMac, memRead_append_left (by omega), sourceMac]

theorem sourceIp_append (h : 42 ≤ P.length) : sourceIp (P ++ T) = sourceIp P := by
  rw [sourceIp, memRead_append_left (by omega), sourceIp]

theorem sourcePort_append (h : 42 ≤ P.length) : sourcePort (P ++ T) = sourcePort P := by
  rw [sourcePort, memRead_append_left (by omega), sourcePort]

theorem learnPeer_append (h : 42 ≤ P.length) (s : State) : learnPeer (P ++ T) s = learnPeer P s := by
  rw [learnPeer, sourceMac_append T h, sourceIp_append T h, sourcePort_append T h, learnPeer]

/-- The frame ends with the UDP length (41_link_headers.md R101). -/
theorem packetFrame_append (h : 42 ≤ P.length) (hend : 34 + udpLength P ≤ P.length) :
    packetFrame (P ++ T) = packetFrame P := by
  rw [packetFrame, udpLength_append T h, slice_append_left hend, packetFrame]

/-- The filter tests the headers, and that the UDP length is within the packet. -/
theorem accepts_append {s : State} (h : accepts s P = true) : accepts s (P ++ T) = true := by
  obtain ⟨hlen, htype, hproto, hip, hport, hudp, hend⟩ := (accepts_iff s P).mp h
  rw [accepts_iff, List.length_append, memRead_append_left (by omega), byteAt_append_left T (by omega),
    memRead_append_left (by omega), memRead_append_left (by omega), memRead_append_left (by omega)]
  exact ⟨by omega, htype, hproto, hip, hport, hudp, by omega⟩

/-- LT.PARSE takes an accepted packet the same whatever follows it. -/
theorem ltParse_append_of_accepted {s : State} (ha : accepts s P = true) :
    exec (.ltParse (P ++ T)) s = exec (.ltParse P) s := by
  obtain ⟨hlen, -, -, -, -, -, hend⟩ := (accepts_iff s P).mp ha
  rw [exec_ltParse, exec_ltParse, accepts_append T ha, ha, packetFrame_append T hlen hend, sourceMac_append T hlen,
    sourceIp_append T hlen, sourcePort_append T hlen, learnPeer_append T hlen]

end

/-- Settles O30: an answer Ok means that the packet was accepted. -/
theorem trailingBytesAreIgnored : Obligations.TrailingBytesAreIgnored := by
  intro s t P T F mac ip port h
  rw [ltParse_append_of_accepted T (accepted_of_ltParse_eq_ok h), h]

end Sys2Proof.Proofs.HeaderParser
end

section
/-! The build-then-parse law (41_link_headers.md R109): the parser reads from a built packet the fields that the builder put
there, and what it learns is where the builder sends. -/

namespace Sys2Proof.Proofs.BuildThenParse

open Machine Memory HeaderBuilder HeaderParser

/-! ### Parsing a built packet -/

section
variable (a : State) {F : Bytes}

theorem sourceMac_buildPacket (F : Bytes) : sourceMac (buildPacket a F) = a.localMac := by
  rw [sourceMac, memRead_buildPacket_sourceMac, BitVec.ofNat_toNat, BitVec.setWidth_eq]

theorem sourceIp_buildPacket (F : Bytes) : sourceIp (buildPacket a F) = a.localIp := by
  rw [sourceIp, memRead_buildPacket_sourceIp, BitVec.ofNat_toNat, BitVec.setWidth_eq]

theorem sourcePort_buildPacket (F : Bytes) : sourcePort (buildPacket a F) = a.localPort := by
  rw [sourcePort, memRead_buildPacket_sourcePort, BitVec.ofNat_toNat, BitVec.setWidth_eq]

theorem packetFrame_buildPacket (hF : F.length ≤ 131) : packetFrame (buildPacket a F) = F := by
  have hend : 34 + udpLength (buildPacket a F) = 42 + F.length := by
    rw [udpLength, memRead_buildPacket_udpLength a (by omega)]
    omega
  rw [packetFrame, hend, slice_buildPacket_frame]

/-- The filter of the unit the packet is addressed to lets it through (41_link_headers.md R100). -/
theorem accepts_buildPacket {b : State} (hF : F.length ≤ 131) (hip : b.localIp = a.peerIp)
    (hport : b.localPort = a.peerPort) (htype : b.cfg.ethertypeIpv4 = a.cfg.ethertypeIpv4) :
    accepts b (buildPacket a F) = true := by
  rw [accepts_iff, buildPacket_length, memRead_buildPacket_etherType, memRead_buildPacket_destinationIp,
    memRead_buildPacket_destinationPort, memRead_buildPacket_udpLength a (by omega), hip, hport, htype]
  exact ⟨by omega, rfl, rfl, rfl, rfl, by omega, by omega⟩

end

/-! ### Building after learning -/

section
variable (r : Response) (P : Bytes) {s : State}

theorem localValid_learnPeer : localValid (learnPeer P s).status = localValid s.status := by
  cases h : s.cfg.learnPeerMac <;> simp [learnPeer_eq, h]

theorem peerValid_learnPeer : peerValid (learnPeer P s).status = true := by
  cases h : s.cfg.learnPeerMac <;> simp [learnPeer_eq, h]

/-- After learning from a packet the link address of its sender is known (41_link_headers.md R107). -/
theorem destinationMac_learnPeer (h : s.cfg.learnPeerMac = true) :
    destinationMac (answered r (learnPeer P s)) = sourceMac P := by
  rw [destinationMac_of_known (by simp [learnPeer_eq, h])]
  simp [learnPeer_eq, h]

/-- What a unit builds after learning from a packet goes to the packet's sender (70_reset_and_hazards.md R187). -/
theorem ltBuild_after_learnPeer (hl : localValid s.status = true) {G : Bytes} (hG : G.length ≤ 131) :
    ∃ Q : Bytes, exec (.ltBuild G) (answered r (learnPeer P s))
        = .next (answered (.ok (.packet Q)) (answered r (learnPeer P s))) ∧
      memRead Q 30 4 = (sourceIp P).toNat ∧ memRead Q 36 2 = (sourcePort P).toNat ∧
      (s.cfg.learnPeerMac = true → memRead Q 0 6 = (sourceMac P).toNat) := by
  refine ⟨_, ltBuild_of_configured ((localValid_learnPeer P).trans hl) (peerValid_learnPeer P) hG, ?_, ?_,
    fun hm => ?_⟩
  · rw [memRead_buildPacket_destinationIp, answered_peerIp, learnPeer_eq]
  · rw [memRead_buildPacket_destinationPort, answered_peerPort, learnPeer_eq]
  · rw [memRead_buildPacket_destinationMac, destinationMac_learnPeer r P hm]

end

/-- Settles O32: B accepts A's packet with anything after it, reads A's fields from it, and learns A. -/
theorem buildThenParse : Obligations.BuildThenParse := by
  intro a b F P T hbuild hl hip hport htype
  obtain ⟨-, -, hF, rfl⟩ := ltBuild_eq_packet_iff.mp hbuild
  have ha := accepts_buildPacket a hF hip hport htype
  refine ⟨_, (ltParse_append_of_accepted T ha).trans (ltParse_of_accepted hl ha), ?_, fun G hG => ?_⟩
  · rw [answered_response, packetFrame_buildPacket a hF, sourceMac_buildPacket, sourceIp_buildPacket,
      sourcePort_buildPacket]
  · have hnext := fun r => ltBuild_after_learnPeer r (buildPacket a F) hl hG
    simp only [sourceMac_buildPacket, sourceIp_buildPacket, sourcePort_buildPacket] at hnext
    exact hnext _

end Sys2Proof.Proofs.BuildThenParse
end

section
/-! LT.SETUP, LT.SETDEST, LT.SETPEERMAC, LT.RD and LT.RESET (42_config_ops.md R120 to R126): what each answers and
writes, and what is read back. -/

namespace Sys2Proof.Proofs.ConfigOps

open Machine Safety Registers

/-! ### The setup operations -/

theorem exec_ltSetup (mac : Mac) (ip : Ip) (port : Port) (s : State) :
    exec (.ltSetup mac ip port) s = .next (answered (.ok .none) (writeLocal mac ip port s)) := rfl

theorem exec_ltSetdest (ip : Ip) (port : Port) (s : State) :
    exec (.ltSetdest ip port) s = .next (answered (.ok .none) (forgetPeerMac (writePeer ip port s))) := rfl

theorem exec_ltSetpeermac_true (mac : Mac) (s : State) :
    exec (.ltSetpeermac true mac) s = .next (answered (.ok .none) (writePeerMac mac s)) := rfl

theorem exec_ltSetpeermac_false (mac : Mac) (s : State) :
    exec (.ltSetpeermac false mac) s = .next (answered (.ok .none) (forgetPeerMac s)) := rfl

theorem exec_ltReset (s : State) : exec .ltReset s = .next (answered (.ok .none) (clearStatus s)) := rfl

/-- Settles O33: the record update is what `writeLocal` does. -/
theorem ltSetupResult : Obligations.LtSetupResult := fun s mac ip port => exec_ltSetup mac ip port s

/-- Settles O34: the record update is what `writePeer` and then `forgetPeerMac` do. -/
theorem ltSetdestResult : Obligations.LtSetdestResult := fun s ip port => exec_ltSetdest ip port s

/-- Settles O35: the record updates are what `writePeerMac` and `forgetPeerMac` do. -/
theorem ltSetpeermacResult : Obligations.LtSetpeermacResult :=
  fun s mac => ⟨exec_ltSetpeermac_true mac s, exec_ltSetpeermac_false mac s⟩

/-! ### LT.RD -/

section
variable {s : State} {r : BitVec 3}

theorem ltRd_of_registerValid (hr : r ≠ 7#3) (hv : registerValid r s = true) :
    exec (.ltRd r) s = .next (answered (.ok (.register (readRegister r s))) s) := by
  rw [exec_ltRd, if_neg hr, if_pos hv]

theorem ltRd_of_not_registerValid (hr : r ≠ 7#3) (hv : registerValid r s = false) :
    exec (.ltRd r) s = .next (answered (.failed .notConfigured) s) := by
  simp [exec_ltRd, hr, hv]

end

/-- Settles O36: register by register, its valid bit 0 or 1. -/
theorem ltRdResult : Obligations.LtRdResult := by
  intro s r
  by_cases h7 : r = 7#3
  · simp [exec_ltRd, h7]
  cases hv : registerValid r s with
  | false =>
    rw [ltRd_of_not_registerValid h7 hv]
    rcases register_cases r with rfl | rfl | rfl | rfl | rfl | rfl | rfl | rfl <;> simp_all
  | true =>
    rw [ltRd_of_registerValid h7 hv]
    rcases register_cases r with rfl | rfl | rfl | rfl | rfl | rfl | rfl | rfl <;> simp_all

/-- Settles O37: each setup operation sets the valid bit of what it writes, so LT.RD answers the operand. -/
theorem storedValuesReadBack : Obligations.StoredValuesReadBack := by
  intro s t mac ip port
  refine ⟨fun h => ?_, fun h => ?_, fun h => ?_⟩
  · obtain rfl := next_eq_next.mp ((exec_ltSetup mac ip port s).symm.trans h)
    have hl : localValid (answered (.ok .none) (writeLocal mac ip port s)).status = true := by simp
    exact ⟨ltRd_of_registerValid (by decide) hl, ltRd_of_registerValid (by decide) hl,
      ltRd_of_registerValid (by decide) hl⟩
  · obtain rfl := next_eq_next.mp ((exec_ltSetdest ip port s).symm.trans h)
    have hp : peerValid (answered (.ok .none) (forgetPeerMac (writePeer ip port s))).status = true := by simp
    exact ⟨ltRd_of_registerValid (by decide) hp, ltRd_of_registerValid (by decide) hp⟩
  · obtain rfl := next_eq_next.mp ((exec_ltSetpeermac_true mac s).symm.trans h)
    exact ltRd_of_registerValid (by decide) (by simp)

/-! ### LT.RESET -/

theorem clearStatus_of_status_zero {s : State} (h : s.status = 0b000#3) : clearStatus s = s := by
  rw [clearStatus, ← h]

theorem ltRd_status_of_status_zero {s : State} (h : s.status = 0b000#3) :
    exec (.ltRd 6#3) s = .next (answered (.ok (.register 0#48)) s) := by
  rw [ltRd_of_registerValid (by decide) (registerValid_status s), readRegister_status, h]
  rfl

/-- With every valid bit clear no value register is part of the view (10_state.md R18, R24). -/
theorem sameView_of_status_zero {s t : State} (hs : s.status = 0b000#3) (ht : t.status = 0b000#3)
    (hcfg : s.cfg = t.cfg) (hresponse : s.response = t.response) (hhost : s.host = t.host) : SameView s t where
  cfg := hcfg
  status := hs.trans ht.symm
  response := hresponse
  host := hhost
  localRegisters := by simp [hs]
  peerRegisters := by simp [hs]
  peerMacRegister := by simp [hs]

/-- Settles O39: LT.RESET is `clearStatus`, and neither it nor a reset leaves a valid bit. -/
theorem ltResetTearsDown : Obligations.LtResetTearsDown := by
  intro s
  refine ⟨exec_ltReset s, fun t h => ?_, fun h => ?_⟩
  · obtain rfl := next_eq_next.mp ((exec_ltReset s).symm.trans h)
    exact ⟨sameView_of_status_zero rfl rfl rfl rfl rfl, ltRd_status_of_status_zero rfl, ltBuild_of_status_zero rfl⟩
  · rw [exec_ltReset, clearStatus_of_status_zero h]

end Sys2Proof.Proofs.ConfigOps
end

section
/-! The pseudo-operations LT.SEND and LT.RECV (42_config_ops.md R128, R129), from the answers of the two operations that
each is made of. -/

namespace Sys2Proof.Proofs.PseudoOps

open Machine Memory FrameCodec HeaderParser BuildThenParse

/-! ### LT.SEND -/

section
variable {s : State} {seq ty : BitVec 8} {payload : Bytes}

theorem ltSend_of_fcEncode_failed {f : Failure}
    (h : exec (.fcEncode seq ty payload) s = .next (answered (.failed f) s)) :
    ltSend seq ty payload s = .next (answered (.failed f) s) := by
  simp only [ltSend, h, answered_response]

/-- FC.ENCODE's frame is never too long for LT.BUILD (42_config_ops.md R128). -/
theorem fcEncode_frame_of_withinBounds (h : withinBounds seq ty payload = true) :
    ∃ F : Bytes, exec (.fcEncode seq ty payload) s = .next (answered (.ok (.frame F)) s) ∧
      4 ≤ F.length ∧ F.length ≤ 131 := by
  obtain ⟨-, -, hlen⟩ := (withinBounds_iff ..).mp h
  exact ⟨_, fcEncode_of_withinBounds h s, by rw [marshal_length]; omega, by rw [marshal_length]; omega⟩

/-- LT.BUILD does not read the response that FC.ENCODE left at the port, and replaces it. -/
theorem ltSend_of_fcEncode_frame {F : Bytes}
    (h : exec (.fcEncode seq ty payload) s = .next (answered (.ok (.frame F)) s)) :
    ltSend seq ty payload s = exec (.ltBuild F) s := by
  rw [ltSend, h]
  exact (exec_ltBuild _ F).trans (exec_ltBuild s F).symm

theorem ltBuild_of_not_configured (h : localValid s.status = false ∨ peerValid s.status = false) (F : Bytes) :
    exec (.ltBuild F) s = .next (answered (.failed .notConfigured) s) := by
  rw [exec_ltBuild, if_pos h]

end

/-- Settles O43: FC.ENCODE's bounds, then LT.BUILD's valid bits; the packet is 42 bytes longer than the frame. -/
theorem ltSendComposes : Obligations.LtSendComposes := by
  intro s seq ty payload
  split
  · next hb => exact ltSend_of_fcEncode_failed (fcEncode_of_not_withinBounds ((not_withinBounds_iff ..).mpr hb) s)
  · next hb =>
    have hbounds := not_not.mp (mt (not_withinBounds_iff seq ty payload).mp hb)
    obtain ⟨F, hframe, hmin, hmax⟩ := fcEncode_frame_of_withinBounds (s := s) hbounds
    rw [ltSend_of_fcEncode_frame hframe]
    split
    · next hc => exact ltBuild_of_not_configured hc F
    · next hc =>
      simp only [not_or, Bool.not_eq_false] at hc
      have hpacket := ltBuild_of_configured hc.1 hc.2 hmax
      have hlen := buildPacket_length s F
      exact ⟨F, _, hframe, hpacket, hpacket, by omega, by omega⟩

/-! ### LT.RECV -/

section
variable {s t : State} {P F : Bytes} {mac : Mac} {ip : Ip} {port : Port}

/-- What LT.PARSE can do: fail on the state as it was, or answer the frame on the learned state. -/
theorem ltParse_next_cases (h : exec (.ltParse P) s = .next t) :
    (∃ f, t = answered (.failed f) s) ∨
      t = answered (.ok (.parsed (packetFrame P) (sourceMac P) (sourceIp P) (sourcePort P))) (learnPeer P s) := by
  rw [exec_ltParse] at h
  split_ifs at h with hl ha
  · exact .inr (next_eq_next.mp h).symm
  · exact .inl ⟨_, (next_eq_next.mp h).symm⟩
  · exact .inl ⟨_, (next_eq_next.mp h).symm⟩

theorem ltRecv_of_ltParse_failed {f : Failure} (h : exec (.ltParse P) s = .next t)
    (hr : t.response = some (.failed f)) : ltRecv P s = (.next t, none) := by
  simp only [ltRecv, h, hr]

theorem ltRecv_of_fcDecode_ok {v : Values} (h : exec (.ltParse P) s = .next t)
    (hr : t.response = some (.ok (.parsed F mac ip port)))
    (hd : exec (.fcDecode F) t = .next (answered (.ok v) t)) :
    ltRecv P s = (.next (answered (.ok v) t), some ⟨mac, ip, port⟩) := by
  simp only [ltRecv, h, hr, hd, answered_response]

theorem ltRecv_of_fcDecode_failed {f : Failure} (h : exec (.ltParse P) s = .next t)
    (hr : t.response = some (.ok (.parsed F mac ip port)))
    (hd : exec (.fcDecode F) t = .next (answered (.failed f) t)) :
    ltRecv P s = (.next (answered (.failed f) t), none) := by
  simp only [ltRecv, h, hr, hd, answered_response]

/-- The peer is the sender that LT.PARSE answers (41_link_headers.md R105). -/
theorem peer_of_ltParse_parsed (h : exec (.ltParse P) s = .next t)
    (hr : t.response = some (.ok (.parsed F mac ip port))) : t.peerIp = ip ∧ t.peerPort = port := by
  obtain ⟨f, rfl⟩ | rfl := ltParse_next_cases h
  · cases hr
  · cases hr
    simp [learnPeer_eq]

end

/-- Settles O44: by what LT.PARSE answers, and FC.DECODE after it. -/
theorem ltRecvComposes : Obligations.LtRecvComposes := by
  intro s t P h
  refine ⟨fun f => ltRecv_of_ltParse_failed h, fun F mac ip port hr => ?_, ?_⟩
  · have hd := exec_fcDecode t F
    cases hu : unmarshal t.cfg.frameBitOrder F with
    | ok v => exact ⟨_, hu ▸ hd, ltRecv_of_fcDecode_ok h hr (hu ▸ hd), peer_of_ltParse_parsed h hr⟩
    | failed f => exact ⟨_, hu ▸ hd, ltRecv_of_fcDecode_failed h hr (hu ▸ hd), peer_of_ltParse_parsed h hr⟩
  · obtain ⟨f, rfl⟩ | rfl := ltParse_next_cases h
    · exact ⟨_, rfl, .inl ⟨f, rfl⟩⟩
    · exact ⟨_, rfl, .inr ⟨_, _, _, _, rfl⟩⟩

end Sys2Proof.Proofs.PseudoOps
end

section
/-! The sixteen frame types (43_message_types.md R135 to R152): what the unit answers to a frame of any type, and the ERROR
frame, whose one payload byte is the error code. -/

namespace Sys2Proof.Proofs.MessageTypes

open Machine FrameCodec

/-! ### The frame rows -/

/-- What the unit answers to a frame at its port, for every type alike (43_message_types.md R135, log 6). -/
theorem frameInstr_answers (t : MessageType) (s : State) (seq : BitVec 5) (ck : Byte) (payload : Bytes) :
    exec (frameInstr t seq ck payload) s = .next (answered
      (if 127 < payload.length then .failed .truncated
        else if frameChecksum s.cfg.frameBitOrder seq (typeNumber t) payload = ck then
          .ok (.fields seq (typeNumber t) (payloadLength payload) ck payload)
        else .failed .checksumMismatch) s) := by
  rw [exec_frameInstr, takeFrame, respond_eq]
  split
  · next hlong => rw [unmarshal_frameBytes_long _ _ _ _ hlong]
  · next hfits => rw [unmarshal_frameBytes _ _ _ _ (not_lt.mp hfits)]

/-- Settles O21: each row is a type's instruction beside the type's number. -/
theorem frameRowsAreDecoded : Obligations.FrameRowsAreDecoded := by
  intro row hrow
  obtain ⟨t, -, rfl⟩ := List.exists_of_mem_map (f := fun t => (frameInstr t, typeNumber t))
    (l := [.ack, .nack, .okAck, .start, .size, .data, .textNameAck, .videoNameAck, .imageNameAck, .endOfFile,
      .moveRight, .moveUp, .moveDown, .moveLeft, .mapUpdate, .error]) hrow
  exact frameInstr_answers t

/-! ### The ERROR frame -/

theorem errorPayload_injective {c : Config} (h : errorCodesDistinct c = true) : Function.Injective (errorPayload c) :=
  List.singleton_injective.comp (errorCodeByte_injective h)

/-- Settles O22: the frame round trip and the injectivity of FC.ENCODE, at a payload of one byte. -/
theorem errorCodeTravelsAsPayload : Obligations.ErrorCodeTravelsAsPayload := by
  constructor
  · intro s seq e hseq
    obtain ⟨F, henc, hdec⟩ := frameRoundTrip.1 s s seq 15#8 (errorPayload s.cfg e) rfl hseq (by decide)
      (by simp [errorPayload])
    obtain ⟨-, hF⟩ := fcEncode_eq_frame_iff.mp henc
    have hlen : F.length = 5 := by rw [← hF, marshal_length]; rfl
    exact ⟨F, henc, hlen, hdec⟩
  · intro s seq seq' e e' F hdistinct h h'
    obtain ⟨-, -, hpayload⟩ := fcEncodeIsInjective.2 s _ _ _ _ _ _ F h h'
    exact errorPayload_injective hdistinct hpayload

end Sys2Proof.Proofs.MessageTypes
end

section
/-! Result codes and exceptions (60_exceptions.md R160, R168, R177): an operation that fails, or only computes, answers
and does nothing else, and between commands the unit does nothing. -/

namespace Sys2Proof.Proofs.Exceptions

open Machine StepByEvent

/-- A failure answers on the state as it was (60_exceptions.md R168). -/
theorem eq_answered_of_failed {i : Instr} {s t : State} {f : Failure} (h : exec i s = .next t)
    (hf : t.response = some (.failed f)) : t = answered (.failed f) s := by
  obtain ⟨u, r, -, rfl, hkeeps⟩ := exec_effect h
  have hr : r = .failed f := Option.some.inj hf
  rw [hr, hkeeps f hr]

/-- The operations with no register to write answer the state they read, whatever the response (60_exceptions.md R168). -/
theorem readers_answer (s : State) (seq ty : BitVec 8) (B : Bytes) (r : BitVec 3) :
    ∀ i ∈ [Instr.fcEncode seq ty B, .fcDecode B, .fcCksum seq ty B, .ltBuild B, .ltRd r],
      ∃ q, exec i s = .next (answered q s) := by
  simp only [List.forall_mem_cons]
  exact ⟨⟨_, exec_fcEncode s seq ty B⟩, ⟨_, exec_fcDecode s B⟩, ⟨_, exec_fcCksum s seq ty B⟩, ⟨_, exec_ltBuild s B⟩,
    ⟨_, exec_ltRd s r⟩, List.forall_mem_nil _⟩

/-- Settles O46: the effect of an instruction that fails is none, and the readers have none. -/
theorem onlyOkWritesRegisters : Obligations.OnlyOkWritesRegisters :=
  ⟨fun _ _ _ _ => eq_answered_of_failed, readers_answer⟩

/-- Settles O2: the step with nothing at the port. -/
theorem idleStepKeepsEverything : Obligations.IdleStepKeepsEverything := fun _ => step_of_host_nil

/-- Settles O10: `responseCode` numbers Ok, and `failureCode` the eight failures, by their defining equations. -/
theorem resultCodesAreNumbered : Obligations.ResultCodesAreNumbered := ⟨fun _ => rfl, rfl⟩

end Sys2Proof.Proofs.Exceptions
end

section
/-! Reset and hazards (70_reset_and_hazards.md): resets and stops at the port, the order in which the unit comes up, and
whom it addresses once the peer has changed. -/

namespace Sys2Proof.Proofs.ResetAndHazards

open Machine StepByEvent Memory HeaderBuilder HeaderParser BuildThenParse ConfigOps PseudoOps

/-! ### After LT.PARSE -/

section
variable {s t : State} {P : Bytes}

/-- Without LOCAL_VALID there is no Ok (41_link_headers.md R106). -/
theorem localValid_of_ltParse_ok {v : Values} (h : exec (.ltParse P) s = .next t) (hr : t.response = some (.ok v)) :
    localValid s.status = true := by
  by_contra hl
  rw [ltParse_of_not_localValid (Bool.eq_false_of_not_eq_true hl), next_eq_next] at h
  subst h
  cases hr

theorem ltParse_of_localValid_ne_notConfigured (hl : localValid s.status = true) :
    ∃ t, exec (.ltParse P) s = .next t ∧ t.response ≠ some (.failed .notConfigured) := by
  by_cases ha : accepts s P = true
  · exact ⟨_, ltParse_of_accepted hl ha, by simp⟩
  · exact ⟨_, ltParse_of_rejected hl ha, by simp⟩

end

/-- Settles O31: LT.PARSE answered Ok, so it learned the source that it answered. -/
theorem nextBuildAddressesTheSender : Obligations.NextBuildAddressesTheSender := by
  intro s t P F G mac ip port h hr hG
  have hl := localValid_of_ltParse_ok h hr
  obtain ⟨f, rfl⟩ | rfl := ltParse_next_cases h
  · cases hr
  · cases hr
    exact ltBuild_after_learnPeer _ P hl hG

/-! ### After LT.SETUP and LT.SETDEST -/

section
variable {s t : State} {mac : Mac} {ip : Ip} {port : Port}

theorem status_after_ltSetup (h : exec (.ltSetup mac ip port) s = .next t) :
    localValid t.status = true ∧ peerValid t.status = peerValid s.status := by
  obtain rfl := next_eq_next.mp ((exec_ltSetup mac ip port s).symm.trans h)
  simp

theorem status_after_ltSetdest (h : exec (.ltSetdest ip port) s = .next t) :
    localValid t.status = localValid s.status ∧ peerValid t.status = true ∧ peerMacValid t.status = false := by
  obtain rfl := next_eq_next.mp ((exec_ltSetdest ip port s).symm.trans h)
  simp

theorem peerIp_after_ltSetdest (h : exec (.ltSetdest ip port) s = .next t) : t.peerIp = ip := by
  obtain rfl := next_eq_next.mp ((exec_ltSetdest ip port s).symm.trans h)
  rfl

end

/-- Settles O38: LT.SETDEST clears PEER_MAC_VALID, which LT.RD 3 tests and by which LT.BUILD chooses the destination. -/
theorem setdestForgetsTheLinkAddress : Obligations.SetdestForgetsTheLinkAddress := by
  intro s t ip port F h
  obtain ⟨hlocal, hpeer, hmac⟩ := status_after_ltSetdest h
  obtain ⟨hcfg, -, -⟩ := exec_keeps h
  refine ⟨ltRd_of_not_registerValid (by decide) hmac, fun hl hF =>
    ⟨_, ltBuild_of_configured (hlocal.trans hl) hpeer hF, ?_, ?_⟩⟩
  · rw [slice_buildPacket_destinationMac, destinationMac_of_unknown hmac, hcfg]
  · rw [slice_buildPacket_destinationIp, peerIp_after_ltSetdest h]

/-- Settles O42: LT.SETUP sets LOCAL_VALID and leaves PEER_VALID clear; LT.SETDEST then sets it. -/
theorem unitComesUpInOrder : Obligations.UnitComesUpInOrder := by
  intro s t u mac ip ip' port port' F P hs hsetup hsetdest hF
  obtain ⟨hlocal, hpeer⟩ := status_after_ltSetup hsetup
  obtain ⟨hlocal', hpeer', -⟩ := status_after_ltSetdest hsetdest
  have hunset : peerValid t.status = false := by rw [hpeer, hs, peerValid_zero]
  exact ⟨ltBuild_of_not_configured (.inr hunset) F, ltParse_of_localValid_ne_notConfigured hlocal,
    _, ltBuild_of_configured (hlocal'.trans hlocal) hpeer' hF⟩

/-! ### Resets and stops at the port -/

/-- Settles O3: either event is taken from the port and answered by `hardwareReset`, which clears STATUS. -/
theorem resetEventAbandonsOperation : Obligations.ResetEventAbandonsOperation := by
  intro s record rest
  have hreset : step { s with host := .reset :: rest } = .next (hardwareReset { s with host := rest }) :=
    step_of_host_reset rfl
  have hduring : step { s with host := .resetDuring record :: rest } = .next (hardwareReset { s with host := rest }) :=
    step_of_host_resetDuring rfl
  exact ⟨hduring.trans hreset.symm, _, hreset, hardwareReset_status _, hardwareReset_response _,
    hardwareReset_cfg _, hardwareReset_host _⟩

theorem decode_unknownLead (c : Config) {lead : Byte} (operands : Bytes) (hlead : 15 < lead.toNat)
    (hmarker : lead ≠ marker) : decode c (lead :: operands) = .error (.unknownLead lead) := by
  rw [decode, if_neg hmarker, if_pos hlead]

/-- Settles O4: an early command and a record that does not decode each have their step, and the decoder tells a lead
byte that is neither a code nor the marker. -/
theorem portStopsByName : Obligations.PortStopsByName :=
  ⟨fun _ _ _ _ => step_of_host_overlap, fun _ _ _ _ => step_of_host_issue_error,
    fun c _ operands => decode_unknownLead c operands⟩

end Sys2Proof.Proofs.ResetAndHazards
end
